-- ==== Sys2Proof/Word.lean ====
section
/-! DEFINITION. The words of the core: bytes and the 16-bit CRC value (00_scope.md R14). Every value is unsigned. -/

namespace Sys2Proof

/-- An unsigned 8-bit value (00_scope.md R14). -/
abbrev Byte := BitVec 8

/-- An unsigned 16-bit value: the CRC register (10_state.md R23). -/
abbrev Word16 := BitVec 16

end Sys2Proof
end

