-- ==== Sys2Proof/Config.lean ====
section
/-! DEFINITION. The implementation parameters of 00_scope.md R12 as plain data, and the free values. -/

namespace Sys2Proof

/-- `P_EMPTY_FRAME`: what RECEIVE does with a zero-length frame (00_scope.md R12, 42_framer.md R145). -/
inductive EmptyFrame where
  | asTimeout
  | asEmptyMessage
deriving DecidableEq, Repr

/-- The parameters of 00_scope.md R12. Each is OPEN: no definition of the model fixes one. -/
structure Config where
  /-- `P_END`, the terminator byte. -/
  pEnd : Byte
  /-- `P_ESC`, the escape byte. -/
  pEsc : Byte
  /-- `P_SUB_END`, sent after `P_ESC` for `P_END`. -/
  pSubEnd : Byte
  /-- `P_SUB_ESC`, sent after `P_ESC` for `P_ESC`. -/
  pSubEsc : Byte
  /-- `P_EMPTY_FRAME`. -/
  emptyFrame : EmptyFrame
  /-- `P_LEN_BITS`, the width of every length and count. -/
  lenBits : Nat
  /-- `P_BUF_BYTES`, the capacity of OUTBUF in bytes. -/
  bufBytes : Nat
deriving DecidableEq, Repr

/-- The reference configuration of 00_scope.md R12 (the SLIP bytes, 16, 256, the default empty-frame policy).
The spec uses it for its test vectors only; the model uses it for `State.reset` only
(DESIGN CHOICE, notes/assumptions/1.md). -/
def Config.reference : Config where
  pEnd := 0xC0
  pEsc := 0xDB
  pSubEnd := 0xDC
  pSubEsc := 0xDD
  emptyFrame := .asTimeout
  lenBits := 16
  bufBytes := 256

/-- The largest value a `P_LEN_BITS`-bit count holds: `2^P_LEN_BITS - 1` (00_scope.md R12, 30_encoding.md R66). -/
def Config.maxCount (c : Config) : Nat := 2 ^ c.lenBits - 1

/-- FREE VALUE: the byte at an OUTBUF address that draw number `draw` made "any value"
(10_state.md R35, 20_memory.md R52; notes/assumptions/2.md). Independent per draw and per address. -/
opaque Config.freeByte (draw addr : Nat) : Byte

/-- FREE VALUE: the transport's answer to an `IsReady()` that `State.ready` does not give
(60_exceptions.md R176: "any Boolean, chosen by the transport at each call"; notes/assumptions/3.md). -/
opaque Config.freeReady (draw : Nat) : Bool

/-- FREE VALUE: CRC read on the register port while BUSY = 1 (10_state.md R36; notes/assumptions/19.md). -/
opaque Config.freeCrc (draw : Nat) : Word16

/-- FREE VALUE: COUNT read on the register port while BUSY = 1 (10_state.md R36; notes/assumptions/19.md); the port reduces it to
`P_LEN_BITS` bits. -/
opaque Config.freeCount (draw : Nat) : Nat

end Sys2Proof
end

