-- ==== Sys2Proof/Machine/Operands.lean ====
section
/-! DEFINITION. The operand bounds of 30_encoding.md R66 and the byte order of the CRC field (20_memory.md R46). -/

namespace Sys2Proof.Machine

/-- `len(DATA) <= 2^P_LEN_BITS - 1` (30_encoding.md R66). -/
abbrev DataFits (c : Config) (data : List Byte) : Prop := data.length ≤ c.maxCount

/-- SEND with C = 1: the payload and its CRC field fit COUNT (30_encoding.md R66, 42_framer.md R130). -/
abbrev PayloadAndCrcFit (c : Config) (data : List Byte) : Prop := data.length + 2 ≤ c.maxCount

/-- `MAXLEN <= P_BUF_BYTES` (30_encoding.md R66). MAXLEN = 0 is admitted. -/
abbrev MaxlenFits (c : Config) (maxlen : Nat) : Prop := maxlen ≤ c.bufBytes

/-- `hi8(x) = x[15:8]` (00_scope.md R14). -/
def hi8 (x : Word16) : Byte := x.extractLsb' 8 8

/-- `lo8(x) = x[7:0]` (00_scope.md R14). -/
def lo8 (x : Word16) : Byte := x.extractLsb' 0 8

/-- `crc16_be(c)`: the CRC value as its two wire bytes, most significant byte first (20_memory.md R46, R47). -/
def crc16Be (c : Word16) : List Byte := [hi8 c, lo8 c]

/-- The CRC field a receiver reads, high byte first: `(zext_16(hi) << 8) | zext_16(lo)` (42_framer.md R141, R147). -/
def joinBe (hi lo : Byte) : Word16 := (hi.setWidth 16 <<< 8) ||| lo.setWidth 16

end Sys2Proof.Machine
end

