-- ==== Sys2Proof/Syntax.lean ====
section
/-! DEFINITION. The commands of the core: one constructor per row of spec/opcode_table.json (30_encoding.md R60, R62).
Operands are values delivered with the command (20_memory.md R41). -/

namespace Sys2Proof

/-- A command with its operands. `MAXLEN` is an unsigned count and `DATA` a finite byte sequence (30_encoding.md R60);
their bounds are `Instr.wellFormed` (30_encoding.md R66). -/
inductive Instr where
  /-- CRC_RESET, 41_checksum.md R115. -/
  | crcReset
  /-- CRC_UPDATE data, 41_checksum.md R116. -/
  | crcUpdate (data : List Byte)
  /-- CRC_READ, 41_checksum.md R117. -/
  | crcRead
  /-- ENCODE data (E = 0), 40_codec.md R83. -/
  | encode (data : List Byte)
  /-- ENCODE.E data (E = 1), 40_codec.md R83. -/
  | encodeE (data : List Byte)
  /-- DECODE maxlen, data, 40_codec.md R91. -/
  | decode (maxlen : Nat) (data : List Byte)
  /-- SEND data (C = 0), 42_framer.md R131. -/
  | send (data : List Byte)
  /-- SEND.C data (C = 1), 42_framer.md R131. -/
  | sendC (data : List Byte)
  /-- RECEIVE maxlen (C = 0), 42_framer.md R141. -/
  | receive (maxlen : Nat)
  /-- RECEIVE.C maxlen (C = 1), 42_framer.md R141. -/
  | receiveC (maxlen : Nat)
deriving DecidableEq, Repr

end Sys2Proof
end

