-- ==== Sys2Proof/WellFormed.lean ====
section
/-! DEFINITION. Which configurations are admitted (00_scope.md R12, R13) and which operands a command may carry
(30_encoding.md R66). -/

namespace Sys2Proof

/-- The four byte values keep decoding unambiguous (00_scope.md R13). -/
abbrev Config.BytesDistinct (c : Config) : Prop :=
  c.pEnd ≠ c.pEsc ∧ c.pSubEnd ≠ c.pEnd ∧ c.pSubEnd ≠ c.pEsc ∧
    c.pSubEsc ≠ c.pEnd ∧ c.pSubEsc ≠ c.pEsc ∧ c.pSubEnd ≠ c.pSubEsc

/-- The widths are in the ranges of 00_scope.md R12's table. R13 lists the byte checks only: refusing a width
out of R12's range by the same name is DEDUCED (notes/assumptions/9.md). -/
abbrev Config.SizesInRange (c : Config) : Prop :=
  2 ≤ c.lenBits ∧ 1 ≤ c.bufBytes ∧ c.bufBytes ≤ c.maxCount

/-- An admitted configuration (00_scope.md R12, R13). -/
abbrev Config.WellFormed (c : Config) : Prop := c.BytesDistinct ∧ c.SizesInRange

/-- The command's operands are within the bounds of 30_encoding.md R66, for this configuration. -/
def Instr.wellFormed (c : Config) : Instr → Bool
  | .crcReset => true
  | .crcUpdate data => decide (Machine.DataFits c data)
  | .crcRead => true
  | .encode data => decide (Machine.DataFits c data)
  | .encodeE data => decide (Machine.DataFits c data)
  | .decode maxlen data => decide (Machine.MaxlenFits c maxlen) && decide (Machine.DataFits c data)
  | .send data => decide (Machine.DataFits c data)
  | .sendC data => decide (Machine.PayloadAndCrcFit c data)
  | .receive maxlen => decide (Machine.MaxlenFits c maxlen)
  | .receiveC maxlen => decide (Machine.MaxlenFits c maxlen)

end Sys2Proof
end

