-- ==== Sys2Proof/Decode.lean ====
section
/-! DEFINITION. The command record, its decoder and its encoder (30_encoding.md R60 to R69), the pseudo-command CRC (R77)
and the text of a command (R76). -/

namespace Sys2Proof

/-- The record `(CMD, MAXLEN, DATA)` the caller hands over; an operand may be absent (30_encoding.md R60). -/
structure Command where
  cmd : Byte
  maxlen : Option Nat
  data : Option (List Byte)
deriving DecidableEq, Repr

/-- Bits [3:0] of CMD (30_encoding.md R61). -/
def cmdOp (cmd : Byte) : BitVec 4 := cmd.extractLsb' 0 4

/-- Bit [4] of CMD, USE_CRC (30_encoding.md R61, R63). -/
def cmdC (cmd : Byte) : Bool := cmd.getLsbD 4

/-- Bit [5] of CMD, APPEND_END (30_encoding.md R61, R64). -/
def cmdE (cmd : Byte) : Bool := cmd.getLsbD 5

/-- Bits [7:6] of CMD, reserved (30_encoding.md R61, R65). -/
def cmdZ (cmd : Byte) : BitVec 2 := cmd.extractLsb' 6 2

/-- What a CMD byte selects (30_encoding.md R62, R69). -/
inductive Op where
  | crcReset
  | crcUpdate
  | crcRead
  | encode (appendEnd : Bool)
  | decode
  | send (useCrc : Bool)
  | receive (useCrc : Bool)
deriving DecidableEq, Repr

/-- Why a record is no command: each is an `IllegalCommand` of 30_encoding.md R67. -/
inductive DecodeError where
  /-- CMD bits [7:6] are not 00. -/
  | reservedBits
  /-- OP is 0x0 or 0x8..0xF. -/
  | reservedOp
  /-- C = 1 with OP not SEND or RECEIVE. -/
  | crcFlagNotAllowed
  /-- E = 1 with OP not ENCODE. -/
  | endFlagNotAllowed
  /-- A MAXLEN the OP takes is absent. -/
  | maxlenMissing
  /-- A MAXLEN the OP does not take is present. -/
  | maxlenNotTaken
  /-- A DATA the OP takes is absent. -/
  | dataMissing
  /-- A DATA the OP does not take is present. -/
  | dataNotTaken
deriving DecidableEq, Repr

/-- `decode_cmd` of 30_encoding.md R69: total on all 256 CMD values. -/
def decodeCmd (cmd : Byte) : Except DecodeError Op :=
  let c := cmdC cmd
  let e := cmdE cmd
  if cmdZ cmd ≠ 0#2 then .error .reservedBits
  else
    match (cmdOp cmd).toNat with
    | 1 => if c then .error .crcFlagNotAllowed else if e then .error .endFlagNotAllowed else .ok .crcReset
    | 2 => if c then .error .crcFlagNotAllowed else if e then .error .endFlagNotAllowed else .ok .crcUpdate
    | 3 => if c then .error .crcFlagNotAllowed else if e then .error .endFlagNotAllowed else .ok .crcRead
    | 4 => if c then .error .crcFlagNotAllowed else .ok (.encode e)
    | 5 => if c then .error .crcFlagNotAllowed else if e then .error .endFlagNotAllowed else .ok .decode
    | 6 => if e then .error .endFlagNotAllowed else .ok (.send c)
    | 7 => if e then .error .endFlagNotAllowed else .ok (.receive c)
    | _ => .error .reservedOp

/-- A record whose OP takes no MAXLEN. -/
def rejectMaxlen (m : Option Nat) (k : Except DecodeError Instr) : Except DecodeError Instr :=
  match m with
  | none => k
  | some _ => .error .maxlenNotTaken

/-- A record whose OP takes no DATA. -/
def rejectData (d : Option (List Byte)) (k : Except DecodeError Instr) : Except DecodeError Instr :=
  match d with
  | none => k
  | some _ => .error .dataNotTaken

/-- A record whose OP takes a MAXLEN. -/
def takeMaxlen (m : Option Nat) (k : Nat → Except DecodeError Instr) : Except DecodeError Instr :=
  match m with
  | none => .error .maxlenMissing
  | some n => k n

/-- A record whose OP takes a DATA. -/
def takeData (d : Option (List Byte)) (k : List Byte → Except DecodeError Instr) : Except DecodeError Instr :=
  match d with
  | none => .error .dataMissing
  | some xs => k xs

/-- The command a record stands for, or the reason it stands for none: the CMD byte fixes which operands must be
present and which absent (30_encoding.md R60, R62, R67). The bounds of R66 depend on the configuration and are
`Instr.wellFormed`. -/
def decode (c : Command) : Except DecodeError Instr :=
  match decodeCmd c.cmd with
  | .error e => .error e
  | .ok .crcReset => rejectMaxlen c.maxlen (rejectData c.data (.ok .crcReset))
  | .ok .crcUpdate => rejectMaxlen c.maxlen (takeData c.data fun d => .ok (.crcUpdate d))
  | .ok .crcRead => rejectMaxlen c.maxlen (rejectData c.data (.ok .crcRead))
  | .ok (.encode false) => rejectMaxlen c.maxlen (takeData c.data fun d => .ok (.encode d))
  | .ok (.encode true) => rejectMaxlen c.maxlen (takeData c.data fun d => .ok (.encodeE d))
  | .ok .decode => takeMaxlen c.maxlen fun m => takeData c.data fun d => .ok (.decode m d)
  | .ok (.send false) => rejectMaxlen c.maxlen (takeData c.data fun d => .ok (.send d))
  | .ok (.send true) => rejectMaxlen c.maxlen (takeData c.data fun d => .ok (.sendC d))
  | .ok (.receive false) => takeMaxlen c.maxlen fun m => rejectData c.data (.ok (.receive m))
  | .ok (.receive true) => takeMaxlen c.maxlen fun m => rejectData c.data (.ok (.receiveC m))

/-- What each command's CMD byte selects. -/
def Instr.op : Instr → Op
  | .crcReset => .crcReset
  | .crcUpdate _ => .crcUpdate
  | .crcRead => .crcRead
  | .encode _ => .encode false
  | .encodeE _ => .encode true
  | .decode _ _ => .decode
  | .send _ => .send false
  | .sendC _ => .send true
  | .receive _ => .receive false
  | .receiveC _ => .receive true

/-- The CMD byte from its fields: Z = 00, E, C, OP (30_encoding.md R61). -/
def cmdByte (e c : Bool) (op : BitVec 4) : Byte := 0#2 ++ BitVec.ofBool e ++ BitVec.ofBool c ++ op

/-- The CMD byte of an operation (30_encoding.md R61, R62). -/
def encodeCmd : Op → Byte
  | .crcReset => cmdByte false false 0x1
  | .crcUpdate => cmdByte false false 0x2
  | .crcRead => cmdByte false false 0x3
  | .encode e => cmdByte e false 0x4
  | .decode => cmdByte false false 0x5
  | .send c => cmdByte false c 0x6
  | .receive c => cmdByte false c 0x7

/-- The MAXLEN operand a command carries, if it takes one (30_encoding.md R62). -/
def Instr.maxlenOperand : Instr → Option Nat
  | .crcReset | .crcUpdate _ | .crcRead | .encode _ | .encodeE _ | .send _ | .sendC _ => none
  | .decode m _ => some m
  | .receive m => some m
  | .receiveC m => some m

/-- The DATA operand a command carries, if it takes one (30_encoding.md R62). -/
def Instr.dataOperand : Instr → Option (List Byte)
  | .crcReset | .crcRead | .receive _ | .receiveC _ => none
  | .crcUpdate d => some d
  | .encode d => some d
  | .encodeE d => some d
  | .decode _ d => some d
  | .send d => some d
  | .sendC d => some d

/-- The record of a command (30_encoding.md R60 to R62). -/
def encode (i : Instr) : Command where
  cmd := encodeCmd i.op
  maxlen := i.maxlenOperand
  data := i.dataOperand

/-- The record whose CMD byte is the low byte of `w` and whose operands are those its OP takes, all zero: MAXLEN = 0
and an empty DATA. A CMD byte that selects nothing gets no operand. The opcode table gives operands no bits
(DESIGN CHOICE, notes/assumptions/7.md). -/
def commandOfWord (_nbits w : Nat) : Command :=
  let cmd : Byte := BitVec.ofNat 8 w
  match decodeCmd cmd with
  | .error _ => { cmd := cmd, maxlen := none, data := none }
  | .ok .crcReset => { cmd := cmd, maxlen := none, data := none }
  | .ok .crcRead => { cmd := cmd, maxlen := none, data := none }
  | .ok .crcUpdate => { cmd := cmd, maxlen := none, data := some [] }
  | .ok (.encode _) => { cmd := cmd, maxlen := none, data := some [] }
  | .ok (.send _) => { cmd := cmd, maxlen := none, data := some [] }
  | .ok .decode => { cmd := cmd, maxlen := some 0, data := some [] }
  | .ok (.receive _) => { cmd := cmd, maxlen := some 0, data := none }

/-- The command the decoder reads from a CMD byte with zero operands, numbered as spec/opcode_table.json numbers bits.
A command has one byte with bits, so a word above 0xFF is none. -/
def decodeTableWord (nbits w : Nat) : Option Instr :=
  if w < 2 ^ 8 then (decode (commandOfWord nbits w)).toOption else none

/-- The pseudo-command `CRC <data>`: CRC_RESET, then CRC_UPDATE <data> (30_encoding.md R77). -/
def pseudoCrc (data : List Byte) : List Instr := [.crcReset, .crcUpdate data]

/-- The row of spec/opcode_table.json a command belongs to. -/
def Instr.mnemonic : Instr → String
  | .crcReset => "CRC_RESET"
  | .crcUpdate _ => "CRC_UPDATE"
  | .crcRead => "CRC_READ"
  | .encode _ => "ENCODE"
  | .encodeE _ => "ENCODE.E"
  | .decode _ _ => "DECODE"
  | .send _ => "SEND"
  | .sendC _ => "SEND.C"
  | .receive _ => "RECEIVE"
  | .receiveC _ => "RECEIVE.C"

/-- One hexadecimal digit. -/
def hexDigit (n : Nat) : Char := "0123456789ABCDEF".toList.getD n '0'

/-- A byte as two hexadecimal digits. -/
def hexByte (b : Byte) : List Char := [hexDigit (b.toNat / 16), hexDigit (b.toNat % 16)]

/-- `<data>` as a brace list of hexadecimal bytes (30_encoding.md R76); 0x7B and 0x7D are the two braces. -/
def dataText (data : List Byte) : String :=
  String.ofList ([Char.ofNat 0x7B] ++ ((data.map hexByte).intersperse [' ']).flatten ++ [Char.ofNat 0x7D])

/-- A command in the syntax of 30_encoding.md R76: mnemonic, then `<maxlen>` in decimal, then `<data>`. -/
def Instr.text (i : Instr) : String :=
  match i.maxlenOperand, i.dataOperand with
  | none, none => i.mnemonic
  | some m, none => i.mnemonic ++ " " ++ toString m
  | none, some d => i.mnemonic ++ " " ++ dataText d
  | some m, some d => i.mnemonic ++ " " ++ toString m ++ ", " ++ dataText d

end Sys2Proof
end

