-- ==== Sys2Proof/Machine/State.lean ====
section
/-! DEFINITION. The state of the core (10_state.md R20), the inputs it takes, the events it makes, why a step can stop,
and the state right after reset (10_state.md R35). -/

namespace Sys2Proof.Machine

/-- ERR: the closed outcome set of 60_exceptions.md R170, coded by 30_encoding.md R70 (`ErrCode.code`). -/
inductive ErrCode where
  /-- NO_ERROR, `Success`. -/
  | noError
  /-- ERROR_TIMEOUT, `Timeout`. -/
  | errorTimeout
  /-- ERROR_BUFFER, `BufferTooSmall`. -/
  | errorBuffer
  /-- ERROR_STREAM, `TransportNotReady`. -/
  | errorStream
  /-- ERROR_ENCODING, `EncodingError`. -/
  | errorEncoding
deriving DecidableEq, Repr

/-- RXSTATE: the inbound state machine of 10_state.md R27, coded by 30_encoding.md R71 (`RxState.code`). -/
inductive RxState where
  | awaitingData
  | readingUntilTerminator
  | decoding
  | timeout
  | bufferExhausted
  | encodingError
  | checksumMismatch
  | delivered
deriving DecidableEq, Repr

/-- A transport's answer to a `ReadUntil` (00_scope.md R17, 60_exceptions.md R176). -/
inductive ReadAnswer where
  /-- FOUND(bs): the wire bytes before the first terminator, which is consumed and not delivered. -/
  | found (bs : List Byte)
  /-- TIMEOUT. -/
  | timeout
  /-- OVERFLOW: no terminator within the bound. -/
  | overflow
deriving DecidableEq, Repr

/-- An event of the core with the transport (00_scope.md R17, 20_memory.md R45). -/
inductive TransportEvent where
  /-- `IsReady()`, with the Boolean the transport chose. -/
  | isReady (answer : Bool)
  /-- `Write(chunk)`, accepted whole. -/
  | write (chunk : List Byte)
  /-- `ReadUntil(t, bound)`; `id` is the read's number, the model's name for it (notes/assumptions/5.md). -/
  | readUntil (id : Nat) (t : Byte) (bound : Nat)
deriving DecidableEq, Repr

/-- A read the core has issued: its number, and the MAXLEN and C of its RECEIVE (42_framer.md R141). MAXLEN - 1 is the bound
of the read, which the transport's answer must keep (60_exceptions.md R176). -/
structure PendingRead where
  id : Nat
  maxlen : Nat
  useCrc : Bool
deriving DecidableEq, Repr

/-- One move of the outside world (00_scope.md R11; notes/assumptions/4.md). -/
inductive Input where
  /-- The caller issues a command (30_encoding.md R60). -/
  | command (c : Command)
  /-- The transport answers read number `readId` (60_exceptions.md R176). -/
  | answer (readId : Nat) (a : ReadAnswer)
  /-- The core's reset is asserted (70_reset_and_hazards.md R190). -/
  | reset
  /-- The caller reads register `n` of the register port (10_state.md R36). -/
  | readRegister (n : Nat)
  /-- The caller reads OUTBUF at an address (20_memory.md R40). -/
  | readOutbuf (addr : Nat)
deriving DecidableEq, Repr

/-- A value handed back to the caller. -/
inductive Reply where
  /-- The value CRC_UPDATE or CRC_READ returns (41_checksum.md R116, R117). -/
  | result (crc : Word16)
  /-- Register 0, STATUS (10_state.md R36). -/
  | status (v : BitVec 8)
  /-- Register 1, CRC (10_state.md R36). -/
  | crc (v : Word16)
  /-- Register 2, COUNT (10_state.md R36). -/
  | count (v : Nat)
  /-- A byte of OUTBUF (20_memory.md R40). -/
  | outbuf (addr : Nat) (v : Byte)
deriving DecidableEq, Repr

/-- The stored bytes of OUTBUF: (address, byte) cells, addresses strictly rising (`Memory.wf`). An address that is not
listed holds no stored byte; what it reads as is `State.outbufByte` (notes/assumptions/2.md). -/
abbrev Memory := List Host.Cell

/-- Why the model has no next step although nothing was refused. The core itself has no faults (60_exceptions.md R172). -/
inductive Fault where
  /-- The core is idle and the caller hands it nothing: "after reset the core waits for its first command"
  (70_reset_and_hazards.md R190). Raised by `idle`. Safe: the model stops where the hardware waits. -/
  | awaitingCommand
  /-- BUSY = 1 and the transport does not answer: "the model has no completion step, a stuck state"
  (42_framer.md R144). Raised by `idle`. Safe: the model stops where the hardware waits. -/
  | awaitingTransport
  /-- The caller reads OUTBUF at an address that does not exist (20_memory.md R40, R53). Raised by `readOutbuf`.
  Safe: the model says nothing of such a read (DEDUCED, notes/assumptions/11.md). -/
  | outbufAddress (addr : Nat)
deriving DecidableEq, Repr

/-- The refusals of 60_exceptions.md R184: the model gives the run no meaning. Each is safe. -/
inductive Refusal where
  /-- An instruction with no meaning yet; only `exec`'s arms raise it. Safe. -/
  | notModelled (mnemonic : String)
  /-- `IllegalCommand` (30_encoding.md R67). Raised by `takeCommand` and `issueCommand`. Safe. -/
  | illegalCommand
  /-- `BusyCommand` (70_reset_and_hazards.md R194). Raised by `takeCommand`. Safe. -/
  | busyCommand
  /-- `IllFormedConfig` (00_scope.md R13). Raised by `takeCommand` and `withConfig`. Safe. -/
  | illFormedConfig
  /-- `BadRegisterNumber` (10_state.md R36). Raised by `readRegister`. Safe. -/
  | badRegisterNumber (n : Nat)
  /-- `TransportContract` (60_exceptions.md R176): an answer to a read, or to a `Write`, outside the contract. Raised by
  `withAllowed`, `acceptAnswer` and `takeCommand`. Safe. -/
  | transportContract
deriving DecidableEq, Repr

/-- The state of the core, its configuration, the environment's coming moves and the model's own bookkeeping. -/
structure State where
  /-- The configuration: constants of the hardware (10_state.md R30) which no step writes (notes/assumptions/1.md). -/
  cfg : Config
  /-- CRC (10_state.md R23). -/
  crc : Word16
  /-- COUNT (10_state.md R25), below `2^P_LEN_BITS` (notes/assumptions/8.md). -/
  count : Nat
  /-- ERR (10_state.md R26). -/
  err : ErrCode
  /-- RXSTATE (10_state.md R27). -/
  rxState : RxState
  /-- BUSY (10_state.md R28). -/
  busy : Bool
  /-- The stored bytes of OUTBUF (10_state.md R29, 20_memory.md R40). -/
  outbuf : Memory
  /-- The draw that made the unlisted bytes of OUTBUF "any value" (notes/assumptions/2.md). -/
  outbufStamp : Nat
  /-- The outstanding read of a RECEIVE that waits (42_framer.md R141). -/
  pending : Option PendingRead
  /-- How many reads the core has issued (notes/assumptions/5.md). -/
  reads : Nat
  /-- Reads a reset abandoned that are not answered yet (70_reset_and_hazards.md R191). -/
  abandoned : List PendingRead
  /-- The coming moves of the caller and the transport, in order (notes/assumptions/4.md). -/
  inputs : List Input
  /-- The transport's coming answers to `IsReady()`, in order of the calls (notes/assumptions/3.md). -/
  ready : List Bool
  /-- The transport's coming answers `n_written` to `Write(chunk)`, in order of the calls; a `Write` with none listed is
  accepted whole (60_exceptions.md R176; notes/assumptions/12.md). -/
  wrote : List Nat
  /-- The transport events of the core, oldest first (20_memory.md R42, R45). -/
  events : List TransportEvent
  /-- The values handed back to the caller, oldest first (notes/assumptions/6.md). -/
  replies : List Reply
  /-- How many free values have been drawn (notes/assumptions/16.md). -/
  draws : Nat
deriving DecidableEq, Repr

/-- The core at power-on with configuration `cfg`: the registers as 10_state.md R35 gives them, OUTBUF any value
(nothing listed), no transport event made, nothing handed over yet. -/
def State.powerOn (cfg : Config) : State where
  cfg := cfg
  crc := 0x0000
  count := 0
  err := .noError
  rxState := .awaitingData
  busy := false
  outbuf := []
  outbufStamp := 0
  pending := none
  reads := 0
  abandoned := []
  inputs := []
  ready := []
  wrote := []
  events := []
  replies := []
  draws := 1

/-- The machine right after reset, in the reference configuration (notes/assumptions/1.md). -/
def State.reset : State := State.powerOn Config.reference

end Sys2Proof.Machine
end

