-- ==== Sys2Proof/Machine/Ops.lean ====
section
/-! DEFINITION. The operations every meaning shares: OUTBUF, the transport primitives, admitting a command, finishing a
command, reset. The core takes no exceptions (60_exceptions.md R172, R175); the shared operations in their place are
`applyReset` and `finishErr`. -/

namespace Sys2Proof.Machine

/-! ## OUTBUF -/

/-- Addresses strictly rise: the one canonical form of the stored bytes. -/
abbrev Memory.wf (m : Memory) : Prop := m.Pairwise fun x y => x.1 < y.1

/-- The byte stored at an address; none where nothing is listed. -/
def Memory.read (m : Memory) (a : Nat) : Option Byte :=
  match m with
  | [] => none
  | (k, v) :: rest => if k = a then some v else Memory.read rest a

/-- `MemWrite(addr, 1, v)` (00_scope.md R16): insert or replace, keeping addresses strictly rising. -/
def Memory.write (m : Memory) (a : Nat) (b : Byte) : Memory :=
  match m with
  | [] => [(a, b)]
  | (k, v) :: rest =>
    if a < k then (a, b) :: (k, v) :: rest
    else if a = k then (a, b) :: rest
    else (k, v) :: Memory.write rest a b

/-- One `MemWrite` per byte, at rising addresses from `a`. -/
def Memory.writeBytes (m : Memory) (a : Nat) (bs : List Byte) : Memory :=
  match bs with
  | [] => m
  | b :: rest => Memory.writeBytes (Memory.write m a b) (a + 1) rest

/-- What OUTBUF holds at an address: the stored byte, else the free value of the draw that last made the unlisted
bytes "any value" (10_state.md R35, 20_memory.md R52). -/
def State.outbufByte (s : State) (a : Nat) : Byte :=
  (Memory.read s.outbuf a).getD (Config.freeByte s.outbufStamp a)

/-- The free bytes of one draw at the addresses `lo .. hi-1`. -/
def freeBytes (draw lo hi : Nat) : List Byte := (List.range' lo (hi - lo)).map (Config.freeByte draw)

/-- OUTBUF[0 .. len(p)) gets `p` and OUTBUF[len(p) .. maxlen) any value (40_codec.md R96, 42_framer.md R148); with an
empty `p`, OUTBUF[0 .. maxlen) gets any value (40_codec.md R97, 42_framer.md R150). Every address below `maxlen` or
below `len(p)` is written and no other. -/
def State.fillOutbuf (s : State) (p : List Byte) (maxlen : Nat) : State :=
  { s with
    outbuf := Memory.writeBytes s.outbuf 0 (p ++ freeBytes s.draws p.length maxlen)
    draws := s.draws + 1 }

/-! ## Registers -/

/-- `CRC <- c`. -/
def State.setCrc (s : State) (c : Word16) : State := { s with crc := c }

/-- `COUNT <- n`. -/
def State.setCount (s : State) (n : Nat) : State := { s with count := n }

/-- `ERR <- e`. -/
def State.setErr (s : State) (e : ErrCode) : State := { s with err := e }

/-- `RXSTATE <- r`. -/
def State.setRxState (s : State) (r : RxState) : State := { s with rxState := r }

/-- A value returned to the caller. -/
def State.reply (s : State) (r : Reply) : State := { s with replies := s.replies ++ [r] }

/-! ## Transport primitives -/

/-- TX: the chunks the core has written, in order (20_memory.md R42). -/
def chunksWritten (events : List TransportEvent) : List (List Byte) :=
  events.filterMap fun
    | .write chunk => some chunk
    | .isReady _ => none
    | .readUntil _ _ _ => none

/-- TX (20_memory.md R42). -/
def State.tx (s : State) : List (List Byte) := chunksWritten s.events

/-- The wire bytes sent: the concatenation of the chunks in order (20_memory.md R42). -/
def State.wire (s : State) : List Byte := s.tx.flatten

/-- What the transport answers to the next `IsReady()`: the answer it has ready, else a free draw
(60_exceptions.md R176). -/
def State.nextReady (s : State) : Bool :=
  match s.ready with
  | b :: _ => b
  | [] => Config.freeReady s.draws

/-- The state after one `IsReady()` event (00_scope.md R17). -/
def State.askReady (s : State) : State :=
  { s with
    ready := s.ready.tail
    draws := if s.ready = [] then s.draws + 1 else s.draws
    events := s.events ++ [.isReady s.nextReady] }

/-- The transport accepts each of these chunks whole: its coming answers `n_written` are the lengths of the chunks
(60_exceptions.md R176); a chunk with no answer listed is accepted whole (notes/assumptions/12.md). -/
def acceptedWhole (chunks : List (List Byte)) (wrote : List Nat) : Bool :=
  (chunks.zip wrote).all fun w => decide (w.2 = w.1.length)

/-- One `Write` event per chunk, in order, each taking its answer; `takeCommand` has checked that each is accepted whole
(60_exceptions.md R176). -/
def State.writeChunks (s : State) (chunks : List (List Byte)) : State :=
  { s with
    events := s.events ++ chunks.map .write
    wrote := s.wrote.drop chunks.length }

/-- `ReadUntil(P_END, maxlen - 1)`, and the wait for its answer: BUSY = 1, RXSTATE = ReadingUntilTerminator
(42_framer.md R141, R144). -/
def State.readUntilEnd (s : State) (maxlen : Nat) (useCrc : Bool) : State :=
  { s with
    busy := true
    rxState := .readingUntilTerminator
    pending := some { id := s.reads, maxlen := maxlen, useCrc := useCrc }
    reads := s.reads + 1
    events := s.events ++ [.readUntil s.reads s.cfg.pEnd (maxlen - 1)] }

/-- The next input has been taken from the outside world. -/
def State.withInputs (s : State) (rest : List Input) : State := { s with inputs := rest }

/-- The abandoned read of that number, if there is one. -/
def State.abandonedRead (s : State) (readId : Nat) : Option PendingRead :=
  s.abandoned.find? fun p => decide (p.id = readId)

/-- The read of that number is the one the core waits on. -/
def State.awaitedRead (s : State) (readId : Nat) : Option PendingRead :=
  s.pending.filter fun p => decide (p.id = readId)

/-- The answer to an abandoned read is discarded (70_reset_and_hazards.md R191). -/
def State.discardAnswer (s : State) (readId : Nat) : State :=
  { s with abandoned := s.abandoned.filter fun p => decide (p.id ≠ readId) }

/-- The read is answered: BUSY <- 0 (42_framer.md R141). -/
def State.endRead (s : State) : State := { s with busy := false, pending := none }

/-! ## Admitting and finishing -/

/-- A run with a configuration that is not admitted has no meaning (00_scope.md R13, 60_exceptions.md R184). -/
def withConfig (s : State) (k : Host.Outcome State Fault Refusal) : Host.Outcome State Fault Refusal :=
  if s.cfg.WellFormed then k else .refused .illFormedConfig

/-- Every command: refused in a configuration that is not admitted, while BUSY = 1, with operands out of bounds, and where
the transport does not accept whole one of the chunks it `writes`; otherwise it has its effect (60_exceptions.md R176, R184,
70_reset_and_hazards.md R194, 30_encoding.md R66, R67). The order of the four is a DESIGN CHOICE
(notes/assumptions/13.md). -/
def takeCommand (operandsFit : Bool) (writes : List (List Byte)) (effect : State → State) (s : State) :
    Host.Outcome State Fault Refusal :=
  withConfig s <|
    if s.busy then .refused .busyCommand
    else if operandsFit then
      if acceptedWhole writes s.wrote then .next (effect s) else .refused .transportContract
    else .refused .illegalCommand

/-- `finish_err(code, state)` of 42_framer.md R141, R150: the outcome's code, COUNT = 0, OUTBUF[0 .. maxlen) any value. -/
def State.finishErr (s : State) (code : ErrCode) (rx : RxState) (maxlen : Nat) : State :=
  (((s.fillOutbuf [] maxlen).setErr code).setCount 0).setRxState rx

/-- The end of a Delivered RECEIVE (42_framer.md R141, R148). -/
def State.finishDelivered (s : State) (p : List Byte) (maxlen : Nat) : State :=
  (((s.fillOutbuf p maxlen).setCount p.length).setErr .noError).setRxState .delivered

/-- Reset (70_reset_and_hazards.md R190, R191): the registers take the values of 10_state.md R35, every OUTBUF byte is any
value, an outstanding read is abandoned. No transport event is made. The configuration, the record of events and replies
and the environment's coming moves stay (DESIGN CHOICE, notes/assumptions/15.md). -/
def State.applyReset (s : State) : State :=
  { s with
    crc := 0x0000
    count := 0
    err := .noError
    rxState := .awaitingData
    busy := false
    outbuf := []
    outbufStamp := s.draws
    draws := s.draws + 1
    pending := none
    abandoned := s.abandoned ++ s.pending.toList }

end Sys2Proof.Machine
end

