-- ==== Sys2Proof/Machine/Checksum.lean ====
section
/-! DEFINITION. The Checksum Engine: the CRC function (41_checksum.md R110 to R114) and CRC_RESET, CRC_UPDATE, CRC_READ
(R115 to R117). -/

namespace Sys2Proof.Machine

/-- One of the eight rounds of `crc_step` (41_checksum.md R111); 0x8408 is 0x1021 with its 16 bits reversed. -/
def crcRound (c : Word16) : Word16 := if c.getLsbD 0 then (c >>> 1) ^^^ 0x8408 else c >>> 1

/-- `n` rounds. -/
def crcRounds (n : Nat) (c : Word16) : Word16 :=
  match n with
  | 0 => c
  | k + 1 => crcRounds k (crcRound c)

/-- `crc_step(c, b)`: one byte folded into the reflected register (41_checksum.md R111). -/
def crcStep (c : Word16) (b : Byte) : Word16 := crcRounds 8 (c ^^^ b.setWidth 16)

/-- `crc_fold(c, xs)`: the bytes in index order (41_checksum.md R113). -/
def crcFold (c : Word16) (xs : List Byte) : Word16 :=
  match xs with
  | [] => c
  | b :: rest => crcFold (crcStep c b) rest

/-- The table entry `T[i] = crc_step(0x0000, i)` (41_checksum.md R114). -/
def crcTable (i : Byte) : Word16 := crcStep 0x0000 i

/-- The table-driven step `(c >> 8) ^ T[(c ^ zext_16(b)) & 0xFF]` (41_checksum.md R114). -/
def crcStepTable (c : Word16) (b : Byte) : Word16 := (c >>> 8) ^^^ crcTable ((c ^^^ b.setWidth 16).setWidth 8)

/-- One of the eight rounds of `crc_msb_first` (41_checksum.md R112). -/
def crcMsbRound (c : Word16) : Word16 := if c.getLsbD 15 then (c <<< 1) ^^^ 0x1021 else c <<< 1

/-- `n` rounds. -/
def crcMsbRounds (n : Nat) (c : Word16) : Word16 :=
  match n with
  | 0 => c
  | k + 1 => crcMsbRounds k (crcMsbRound c)

/-- The bytes of a message folded into the register of `crc_msb_first` (41_checksum.md R112): reflected input. -/
def crcMsbFold (c : Word16) (xs : List Byte) : Word16 :=
  match xs with
  | [] => c
  | b :: rest => crcMsbFold (crcMsbRounds 8 (c ^^^ (b.reverse.setWidth 16 <<< 8))) rest

/-- `crc_msb_first(xs)`: the parameter set of 00_scope.md R2 read literally (41_checksum.md R112): initial value 0x0000,
reflected output, final XOR 0x0000. -/
def crcMsbFirst (xs : List Byte) : Word16 := (crcMsbFold 0x0000 xs).reverse ^^^ 0x0000

/-- CRC_RESET (41_checksum.md R115). -/
def execCrcReset (s : State) : Host.Outcome State Fault Refusal :=
  takeCommand true [] (fun s => s.setCrc 0x0000) s

/-- CRC_UPDATE (41_checksum.md R116): the value returned is the new CRC. -/
def execCrcUpdate (data : List Byte) (s : State) : Host.Outcome State Fault Refusal :=
  takeCommand (decide (DataFits s.cfg data)) []
    (fun s => (s.setCrc (crcFold s.crc data)).reply (.result (crcFold s.crc data))) s

/-- CRC_READ (41_checksum.md R117): returns CRC and changes no register. -/
def execCrcRead (s : State) : Host.Outcome State Fault Refusal :=
  takeCommand true [] (fun s => s.reply (.result s.crc)) s

end Sys2Proof.Machine
end

