-- ==== Sys2Proof/Machine/Flags.lean ====
section
/-! DEFINITION. The core's flags are ERR and RXSTATE (00_scope.md R18, 10_state.md R33): their codes, the STATUS byte
(10_state.md R36) and the outcome priority of DECODE (40_codec.md R95). -/

namespace Sys2Proof.Machine

/-- The ERR encoding of 30_encoding.md R70. Codes 5..7 are never written. -/
def ErrCode.code : ErrCode → BitVec 3
  | .noError => 0
  | .errorTimeout => 1
  | .errorBuffer => 2
  | .errorStream => 3
  | .errorEncoding => 4

/-- The RXSTATE encoding of 30_encoding.md R71. -/
def RxState.code : RxState → BitVec 3
  | .awaitingData => 0
  | .readingUntilTerminator => 1
  | .decoding => 2
  | .timeout => 3
  | .bufferExhausted => 4
  | .encodingError => 5
  | .checksumMismatch => 6
  | .delivered => 7

/-- STATUS: [7] reads 0, [6] BUSY, [5:3] RXSTATE, [2:0] ERR (10_state.md R36). -/
def statusByte (err : ErrCode) (rx : RxState) (busy : Bool) : BitVec 8 :=
  0#1 ++ BitVec.ofBool busy ++ rx.code ++ err.code

/-- The outcome of DECODE, in the priority of 40_codec.md R95: (a) a misread, (b) an output longer than MAXLEN,
(c) no output from non-empty input (it cannot occur; the check is kept), (d) success. -/
def decodeOutcome (misread : Bool) (outLen wireLen maxlen : Nat) : ErrCode :=
  if misread then .errorEncoding
  else if maxlen < outLen then .errorBuffer
  else if outLen = 0 ∧ 0 < wireLen then .errorEncoding
  else .noError

end Sys2Proof.Machine
end

