-- ==== Sys2Proof/Machine/Codec.lean ====
section
/-! DEFINITION. The Frame Codec: escaping, chunking and unescaping (40_codec.md R81, R82, R91) and ENCODE, ENCODE.E, DECODE
(R83, R91). -/

namespace Sys2Proof.Machine

/-- A special byte: equal to `P_END` or `P_ESC` (00_scope.md R19). -/
abbrev Special (c : Config) (b : Byte) : Prop := b = c.pEnd ∨ b = c.pEsc

/-- `esc(b)` (40_codec.md R81, 30_encoding.md R72). -/
def esc (c : Config) (b : Byte) : List Byte :=
  if b = c.pEnd then [c.pEsc, c.pSubEnd]
  else if b = c.pEsc then [c.pEsc, c.pSubEsc]
  else [b]

/-- `escaped(xs)` (40_codec.md R81). -/
def escaped (c : Config) (xs : List Byte) : List Byte :=
  match xs with
  | [] => []
  | b :: rest => esc c b ++ escaped c rest

/-- A run is flushed as one chunk; an empty run is not flushed (40_codec.md R82). -/
def flushRun (run : List Byte) : List (List Byte) := if run = [] then [] else [run]

/-- The scan of `encode_chunks` (40_codec.md R82) with the pending run `raw[run_start .. i)`. -/
def encodeChunksFrom (c : Config) (run : List Byte) (raw : List Byte) : List (List Byte) :=
  match raw with
  | [] => flushRun run
  | b :: rest =>
    if Special c b then flushRun run ++ [esc c b] ++ encodeChunksFrom c [] rest
    else encodeChunksFrom c (run ++ [b]) rest

/-- `encode_chunks(raw)` (40_codec.md R82). -/
def encodeChunks (c : Config) (raw : List Byte) : List (List Byte) := encodeChunksFrom c [] raw

/-- One more decoded byte in front of a result of `unescape`. -/
def emitByte (b : Byte) (misread : Bool) (r : List Byte × Bool) : List Byte × Bool := (b :: r.1, misread || r.2)

/-- `unescape(wire)` (40_codec.md R91): a single left-to-right pass. An ESC with a substitute byte is one raw byte; an ESC
with any other byte (R92) consumes both, and a trailing lone ESC (R93) one; each emits ESC and is a misread. -/
def unescape (c : Config) (wire : List Byte) : List Byte × Bool :=
  match wire with
  | [] => ([], false)
  | [b] => if b = c.pEsc then ([c.pEsc], true) else ([b], false)
  | b :: n :: rest =>
    if b = c.pEsc then
      if n = c.pSubEnd then emitByte c.pEnd false (unescape c rest)
      else if n = c.pSubEsc then emitByte c.pEsc false (unescape c rest)
      else emitByte c.pEsc true (unescape c rest)
    else emitByte b false (unescape c (n :: rest))

/-- The chunks ENCODE writes (40_codec.md R83): none on empty input, whatever E is (R85). -/
def encodeWrites (c : Config) (appendEnd : Bool) (raw : List Byte) : List (List Byte) :=
  if raw = [] then [] else encodeChunks c raw ++ if appendEnd then [[c.pEnd]] else []

/-- ENCODE with APPEND_END = `appendEnd` (40_codec.md R83 to R86). -/
def encodeEffect (appendEnd : Bool) (raw : List Byte) (s : State) : State :=
  (s.writeChunks (encodeWrites s.cfg appendEnd raw)).setCount raw.length

/-- DECODE (40_codec.md R91, R95 to R98). -/
def decodeEffect (maxlen : Nat) (wire : List Byte) (s : State) : State :=
  let r := unescape s.cfg wire
  let code := decodeOutcome r.2 r.1.length wire.length maxlen
  if code = .noError then ((s.setErr code).fillOutbuf r.1 maxlen).setCount r.1.length
  else ((s.setErr code).fillOutbuf [] maxlen).setCount 0

/-- ENCODE, E = 0 (40_codec.md R83). -/
def execEncode (data : List Byte) (s : State) : Host.Outcome State Fault Refusal :=
  takeCommand (decide (DataFits s.cfg data)) (encodeWrites s.cfg false data) (encodeEffect false data) s

/-- ENCODE.E, E = 1 (40_codec.md R83). -/
def execEncodeE (data : List Byte) (s : State) : Host.Outcome State Fault Refusal :=
  takeCommand (decide (DataFits s.cfg data)) (encodeWrites s.cfg true data) (encodeEffect true data) s

/-- DECODE (40_codec.md R91). -/
def execDecode (maxlen : Nat) (data : List Byte) (s : State) : Host.Outcome State Fault Refusal :=
  takeCommand (decide (MaxlenFits s.cfg maxlen) && decide (DataFits s.cfg data)) [] (decodeEffect maxlen data) s

end Sys2Proof.Machine
end

