-- ==== Sys2Proof/Machine/Framer.lean ====
section
/-! DEFINITION. The Framer: SEND, SEND.C, RECEIVE, RECEIVE.C (42_framer.md R131, R141) and the completion step of a RECEIVE. -/

namespace Sys2Proof.Machine

/-- The chunks of a frame, in order: the payload's, with C = 1 the CRC field's, then `[P_END]`
(42_framer.md R131, R134). -/
def frameChunks (c : Config) (useCrc : Bool) (payload : List Byte) : List (List Byte) :=
  encodeChunks c payload ++
    (if useCrc then encodeChunks c (crc16Be (crcFold 0x0000 payload)) else []) ++ [[c.pEnd]]

/-- The number of raw bytes of a message: the payload and, with C = 1, its CRC field (42_framer.md R135). -/
def messageLength (useCrc : Bool) (payload : List Byte) : Nat := payload.length + if useCrc then 2 else 0

/-- The chunks SEND writes in this state: none when the transport is not ready (42_framer.md R131, R132). -/
def sendWrites (useCrc : Bool) (payload : List Byte) (s : State) : List (List Byte) :=
  if s.nextReady then frameChunks s.cfg useCrc payload else []

/-- SEND (42_framer.md R131): `IsReady()` first; when not ready nothing is written and CRC is unchanged (R132); else CRC is
reset and, with C = 1, folds the raw payload (R133). -/
def sendEffect (useCrc : Bool) (payload : List Byte) (s : State) : State :=
  if s.nextReady then
    (((s.askReady.setCrc (if useCrc then crcFold 0x0000 payload else 0x0000)).writeChunks
      (frameChunks s.cfg useCrc payload)).setCount (messageLength useCrc payload)).setErr .noError
  else (s.askReady.setCount 0).setErr .errorStream

/-- The issue step of RECEIVE (42_framer.md R141 to R144). -/
def receiveEffect (useCrc : Bool) (maxlen : Nat) (s : State) : State :=
  if s.nextReady then
    if maxlen = 0 then ((s.askReady.setErr .errorBuffer).setCount 0).setRxState .bufferExhausted
    else (s.askReady.setCrc 0x0000).readUntilEnd maxlen useCrc
  else ((s.askReady.setErr .errorStream).setCount 0).setRxState .awaitingData

/-- The CRC field of a decoded frame and the payload in front of it; none if it is shorter than two bytes
(42_framer.md R141, R147). -/
def splitCrcField (out : List Byte) : Option (List Byte × Word16) :=
  if out.length < 2 then none
  else some (out.take (out.length - 2),
    joinBe (out.getD (out.length - 2) 0) (out.getD (out.length - 1) 0))

/-- A frame that decoded without a misread (42_framer.md R141, R147, R148). -/
def checkFrame (p : PendingRead) (out : List Byte) (s : State) : State :=
  if p.useCrc then
    match splitCrcField out with
    | none => s.finishErr .errorEncoding .checksumMismatch p.maxlen
    | some (payload, field) =>
      if crcFold 0x0000 payload = field then
        (s.setCrc (crcFold 0x0000 payload)).finishDelivered payload p.maxlen
      else (s.setCrc (crcFold 0x0000 payload)).finishErr .errorEncoding .checksumMismatch p.maxlen
  else s.finishDelivered out p.maxlen

/-- The completion step of RECEIVE on the transport's answer (42_framer.md R141, R144 to R148). -/
def completeRead (p : PendingRead) (a : ReadAnswer) (s : State) : State :=
  match a with
  | .timeout => s.endRead.finishErr .errorTimeout .timeout p.maxlen
  | .overflow => s.endRead.finishErr .errorBuffer .bufferExhausted p.maxlen
  | .found bs =>
    if bs = [] ∧ s.cfg.emptyFrame = .asTimeout then s.endRead.finishErr .errorTimeout .timeout p.maxlen
    else if (unescape s.cfg bs).2 then s.endRead.finishErr .errorEncoding .encodingError p.maxlen
    else checkFrame p (unescape s.cfg bs).1 s.endRead

/-- The answers of 60_exceptions.md R176 to `ReadUntil(t, bound)`. -/
def answerAllowed (t : Byte) (bound : Nat) (a : ReadAnswer) : Bool :=
  match a with
  | .found bs => decide (bs.length ≤ bound) && !bs.contains t
  | .timeout => true
  | .overflow => true

/-- The chunks a command writes in this state (40_codec.md R83, 42_framer.md R131); the other commands write none. -/
def writesOf (i : Instr) (s : State) : List (List Byte) :=
  match i with
  | .crcReset | .crcUpdate _ | .crcRead | .decode _ _ | .receive _ | .receiveC _ => []
  | .encode data => encodeWrites s.cfg false data
  | .encodeE data => encodeWrites s.cfg true data
  | .send data => sendWrites false data s
  | .sendC data => sendWrites true data s

/-- SEND, C = 0 (42_framer.md R131). -/
def execSend (data : List Byte) (s : State) : Host.Outcome State Fault Refusal :=
  takeCommand (decide (DataFits s.cfg data)) (sendWrites false data s) (sendEffect false data) s

/-- SEND.C, C = 1 (42_framer.md R131). -/
def execSendC (data : List Byte) (s : State) : Host.Outcome State Fault Refusal :=
  takeCommand (decide (PayloadAndCrcFit s.cfg data)) (sendWrites true data s) (sendEffect true data) s

/-- RECEIVE, C = 0 (42_framer.md R141). -/
def execReceive (maxlen : Nat) (s : State) : Host.Outcome State Fault Refusal :=
  takeCommand (decide (MaxlenFits s.cfg maxlen)) [] (receiveEffect false maxlen) s

/-- RECEIVE.C, C = 1 (42_framer.md R141). -/
def execReceiveC (maxlen : Nat) (s : State) : Host.Outcome State Fault Refusal :=
  takeCommand (decide (MaxlenFits s.cfg maxlen)) [] (receiveEffect true maxlen) s

end Sys2Proof.Machine
end

