-- ==== Sys2Proof/Machine/Dispatch.lean ====
section
/-! DEFINITION. One arm per command: the meaning each one has. -/

namespace Sys2Proof.Machine

/-- The step of one command (30_encoding.md R62). -/
def exec (i : Instr) (s : State) : Host.Outcome State Fault Refusal :=
  match i with
  | .crcReset => Sys2Proof.Machine.execCrcReset s
  | .crcUpdate data => Sys2Proof.Machine.execCrcUpdate data s
  | .crcRead => Sys2Proof.Machine.execCrcRead s
  | .encode data => Sys2Proof.Machine.execEncode data s
  | .encodeE data => Sys2Proof.Machine.execEncodeE data s
  | .decode maxlen data => Sys2Proof.Machine.execDecode maxlen data s
  | .send data => Sys2Proof.Machine.execSend data s
  | .sendC data => Sys2Proof.Machine.execSendC data s
  | .receive maxlen => Sys2Proof.Machine.execReceive maxlen s
  | .receiveC maxlen => Sys2Proof.Machine.execReceiveC maxlen s

end Sys2Proof.Machine
end

