-- ==== Sys2Proof/Machine/Port.lean ====
section
/-! DEFINITION. What the core does with each input: a command record, the transport's answer, reset, the register port,
OUTBUF reads. -/

namespace Sys2Proof.Machine

/-- A command record is decoded and executed; a record that is no command is refused (30_encoding.md R67, R69). -/
def issueCommand (c : Command) (s : State) : Host.Outcome State Fault Refusal :=
  match decode c with
  | .ok i => exec i s
  | .error _ => takeCommand false [] id s

/-- The transport's answer to the read `p` must be one of those of 60_exceptions.md R176. -/
def withAllowed (s : State) (p : PendingRead) (a : ReadAnswer) (k : Host.Outcome State Fault Refusal) :
    Host.Outcome State Fault Refusal :=
  if answerAllowed s.cfg.pEnd (p.maxlen - 1) a then k else .refused .transportContract

/-- The transport answers read number `readId` (60_exceptions.md R176). The awaited read is completed (42_framer.md R141); the
answer to a read that a reset abandoned is discarded (70_reset_and_hazards.md R191). An answer outside the contract is
refused in both cases, and so is one to a read the core did not make or that is already answered
(notes/assumptions/5.md). -/
def acceptAnswer (readId : Nat) (a : ReadAnswer) (s : State) : Host.Outcome State Fault Refusal :=
  withConfig s <|
    match s.awaitedRead readId with
    | some p => withAllowed s p a (.next (completeRead p a s))
    | none =>
      match s.abandonedRead readId with
      | some p => withAllowed s p a (.next (s.discardAnswer readId))
      | none => .refused .transportContract

/-- The reset input (70_reset_and_hazards.md R190, R191). -/
def acceptReset (s : State) : Host.Outcome State Fault Refusal := withConfig s (.next s.applyReset)

/-- A read whose value is a free draw. -/
def State.replyFree (s : State) (r : Reply) : State := { s.reply r with draws := s.draws + 1 }

/-- A read of the register port (10_state.md R36): STATUS is always exact; CRC and COUNT are any value while BUSY = 1. -/
def readRegister (n : Nat) (s : State) : Host.Outcome State Fault Refusal :=
  withConfig s <|
    match n with
    | 0 => .next (s.reply (.status (statusByte s.err s.rxState s.busy)))
    | 1 => .next (if s.busy then s.replyFree (.crc (Config.freeCrc s.draws)) else s.reply (.crc s.crc))
    | 2 => .next (if s.busy then s.replyFree (.count (Config.freeCount s.draws % 2 ^ s.cfg.lenBits))
        else s.reply (.count s.count))
    | _ => .refused (.badRegisterNumber n)

/-- The caller reads a byte of OUTBUF (20_memory.md R40). While BUSY = 1 the spec gives the read no value: any value
(DESIGN CHOICE, notes/assumptions/10.md). -/
def readOutbuf (addr : Nat) (s : State) : Host.Outcome State Fault Refusal :=
  withConfig s <|
    if addr < s.cfg.bufBytes then
      .next (if s.busy then s.replyFree (.outbuf addr (Config.freeByte s.draws addr))
        else s.reply (.outbuf addr (s.outbufByte addr)))
    else .fault (.outbufAddress addr)

/-- One input of the outside world. -/
def accept (i : Input) (s : State) : Host.Outcome State Fault Refusal :=
  match i with
  | .command c => issueCommand c s
  | .answer readId a => acceptAnswer readId a s
  | .reset => acceptReset s
  | .readRegister n => readRegister n s
  | .readOutbuf addr => readOutbuf addr s

/-- No input comes: the core waits for the transport or for the caller, and the model has no step
(42_framer.md R144, 70_reset_and_hazards.md R190). A configuration that is not admitted is refused here too
(00_scope.md R13). -/
def idle (s : State) : Host.Outcome State Fault Refusal :=
  withConfig s <| if s.busy then .fault .awaitingTransport else .fault .awaitingCommand

end Sys2Proof.Machine
end

