-- ==== Sys2Proof/Machine/Step.lean ====
section
/-! DEFINITION. One step of the machine: the next input of the outside world is taken and the core acts on it
(00_scope.md R10, R11; 10_state.md R22). -/

namespace Sys2Proof.Machine

/-- One step: the caller's or the transport's next move (`State.inputs`), and the core's answer to it. -/
def step (s : State) : Host.Outcome State Fault Refusal :=
  match s.inputs with
  | [] => idle s
  | i :: rest => accept i (s.withInputs rest)

/-- The caller issues the command whose CMD byte is `w`, with zero operands, before everything else it will do
(notes/assumptions/7.md). -/
def State.withFetchWord (s : State) (nbits w : Nat) : State :=
  { s with inputs := .command (commandOfWord nbits w) :: s.inputs }

end Sys2Proof.Machine
end

