-- ==== Sys2Proof/Safety.lean ====
section
/-! DEFINITION. What holds of every state a run passes through, and what a run without a stop is: the terms claims use. -/

namespace Sys2Proof.Machine

/-- The state right between two steps, as the spec describes it. -/
structure State.Inv (s : State) : Prop where
  /-- The configuration is admitted (00_scope.md R13). -/
  config : s.cfg.WellFormed
  /-- COUNT fits its `P_LEN_BITS` bits (10_state.md R20, R25). -/
  count_fits : s.count ≤ s.cfg.maxCount
  /-- The stored bytes of OUTBUF are in canonical form. -/
  outbuf_canonical : Memory.wf s.outbuf
  /-- OUTBUF has `P_BUF_BYTES` bytes (20_memory.md R40). -/
  outbuf_in_range : ∀ cell ∈ s.outbuf, cell.1 < s.cfg.bufBytes
  /-- BUSY = 1 exactly while a RECEIVE waits for its answer (10_state.md R28). -/
  busy_iff_pending : s.busy = true ↔ s.pending ≠ none
  /-- ReadingUntilTerminator is held exactly while BUSY = 1 (10_state.md R27). -/
  busy_iff_reading : s.busy = true ↔ s.rxState = .readingUntilTerminator
  /-- Decoding is never held between steps (10_state.md R27). -/
  not_decoding : s.rxState ≠ .decoding
  /-- The outstanding read: its MAXLEN is admitted and not 0, CRC has been reset, and it was issued and not abandoned
  (42_framer.md R141). -/
  pending_read : ∀ p, s.pending = some p →
    1 ≤ p.maxlen ∧ p.maxlen ≤ s.cfg.bufBytes ∧ s.crc = 0x0000 ∧ p.id < s.reads ∧
      p.id ∉ s.abandoned.map PendingRead.id
  /-- Abandoned reads were issued, each once (70_reset_and_hazards.md R191). -/
  abandoned_issued : ∀ r ∈ s.abandoned, r.id < s.reads
  /-- Each abandoned read stands once. -/
  abandoned_once : (s.abandoned.map PendingRead.id).Nodup
  /-- Every chunk of TX is non-empty (20_memory.md R42). -/
  chunks_nonempty : ∀ chunk ∈ s.tx, chunk ≠ []
  /-- The draw behind the unlisted bytes of OUTBUF has been taken (the model's own bookkeeping). -/
  stamp_drawn : s.outbufStamp < s.draws

/-- A step goes on: it is neither refused nor stuck. -/
def Continues (s : State) : Prop := ∃ t, step s = .next t

/-- A run of `k` steps that meets no refusal and no stuck state; a claim about a run is a claim about such runs
(60_exceptions.md R184). -/
def RunsSafely (s : State) (k : Nat) : Prop :=
  match k with
  | 0 => True
  | n + 1 => ∃ t, step s = .next t ∧ RunsSafely t n

end Sys2Proof.Machine
end

