-- ==== Sys2Proof/Certificates/Slice0/Obligations.lean ====
section
/-! DEFINITION. What the core must do, stated from the numbered rules of spec/. Each statement holds for every admitted
configuration: the parameters of 00_scope.md R12 are `s.cfg`. -/

namespace Sys2Proof.Machine

/-- The transport accepts whole every chunk the command writes, as its contract says (60_exceptions.md R176). -/
def WritesAccepted (i : Instr) (s : State) : Prop := acceptedWhole (writesOf i s) s.wrote = true

/-- The hypotheses under which a command has its effect: an admitted configuration (00_scope.md R13), BUSY = 0
(70_reset_and_hazards.md R194), operands in bounds (30_encoding.md R66) and a transport within its contract. -/
def Takes (i : Instr) (s : State) : Prop :=
  s.cfg.WellFormed ∧ s.busy = false ∧ i.wellFormed s.cfg = true ∧ WritesAccepted i s

/-- Every byte of OUTBUF reads as before. -/
def SameOutbuf (s t : State) : Prop := ∀ a, t.outbufByte a = s.outbufByte a

/-- OUTBUF begins with `p`. -/
def OutbufHolds (t : State) (p : List Byte) : Prop := ∀ j, (h : j < p.length) → t.outbufByte j = p[j]

/-- Every byte of OUTBUF at or above `maxlen` reads as before (20_memory.md R40, R52). -/
def SameOutbufFrom (maxlen : Nat) (s t : State) : Prop := ∀ a, maxlen ≤ a → t.outbufByte a = s.outbufByte a

/-- What no command but RECEIVE touches: the configuration, the outstanding read, the record of reads, the coming inputs. -/
def SameFrameState (s t : State) : Prop :=
  t.cfg = s.cfg ∧ t.pending = s.pending ∧ t.reads = s.reads ∧ t.abandoned = s.abandoned ∧ t.inputs = s.inputs

/-- A RECEIVE waits in `s` on the read `p`; the invariant rules out states no run passes through. -/
def Waiting (s : State) (p : PendingRead) : Prop := s.Inv ∧ s.pending = some p

/-- The transport's answer `a` to the read `p` is the next thing that happens. -/
def AnsweredBy (s : State) (p : PendingRead) (a : ReadAnswer) : Prop :=
  Waiting s p ∧ ∃ rest, s.inputs = .answer p.id a :: rest

/-- An answer of 60_exceptions.md R176 that carries bytes: at most `bound` of them, none the terminator. -/
def AllowedBytes (s : State) (p : PendingRead) (bs : List Byte) : Prop :=
  bs.length ≤ p.maxlen - 1 ∧ s.cfg.pEnd ∉ bs

/-- Any answer of 60_exceptions.md R176 to the read `p`. -/
def AllowedAnswer (s : State) (p : PendingRead) (a : ReadAnswer) : Prop := ∀ bs, a = .found bs → AllowedBytes s p bs

/-- What the completion step of a RECEIVE leaves alone. -/
def CompletionFrame (s t : State) : Prop :=
  t.busy = false ∧ t.pending = none ∧ t.cfg = s.cfg ∧ t.events = s.events ∧ t.reads = s.reads ∧
    t.abandoned = s.abandoned ∧ t.replies = s.replies ∧ t.ready = s.ready ∧
    t.wrote = s.wrote ∧ t.inputs = s.inputs.tail

/-- A RECEIVE ends without a message: COUNT = 0, the outcome's code and state, OUTBUF at or above MAXLEN unchanged
(42_framer.md R150). -/
def EndsInError (s t : State) (p : PendingRead) (code : ErrCode) (rx : RxState) : Prop :=
  t.err = code ∧ t.rxState = rx ∧ t.count = 0 ∧ SameOutbufFrom p.maxlen s t ∧ CompletionFrame s t

/-- A RECEIVE is Delivered with payload `m` (42_framer.md R148). -/
def Delivers (s t : State) (p : PendingRead) (m : List Byte) : Prop :=
  t.err = .noError ∧ t.rxState = .delivered ∧ t.count = m.length ∧ OutbufHolds t m ∧
    SameOutbufFrom p.maxlen s t ∧ CompletionFrame s t

/-- OP, C, E and Z of a CMD byte, read as numbers (30_encoding.md R61). -/
def HasFields (cmd : Byte) (op : Nat) (c e : Bool) : Prop :=
  cmd.toNat % 16 = op ∧ cmd.getLsbD 4 = c ∧ cmd.getLsbD 5 = e ∧ cmd.toNat / 64 = 0

/-- The row of 30_encoding.md R62 that a record must fit to stand for a command. -/
def FitsRow (r : Command) : Instr → Prop
  | .crcReset => HasFields r.cmd 1 false false ∧ r.maxlen = none ∧ r.data = none
  | .crcUpdate d => HasFields r.cmd 2 false false ∧ r.maxlen = none ∧ r.data = some d
  | .crcRead => HasFields r.cmd 3 false false ∧ r.maxlen = none ∧ r.data = none
  | .encode d => HasFields r.cmd 4 false false ∧ r.maxlen = none ∧ r.data = some d
  | .encodeE d => HasFields r.cmd 4 false true ∧ r.maxlen = none ∧ r.data = some d
  | .decode m d => HasFields r.cmd 5 false false ∧ r.maxlen = some m ∧ r.data = some d
  | .send d => HasFields r.cmd 6 false false ∧ r.maxlen = none ∧ r.data = some d
  | .sendC d => HasFields r.cmd 6 true false ∧ r.maxlen = none ∧ r.data = some d
  | .receive m => HasFields r.cmd 7 false false ∧ r.maxlen = some m ∧ r.data = none
  | .receiveC m => HasFields r.cmd 7 true false ∧ r.maxlen = some m ∧ r.data = none

/-- The conditions of 30_encoding.md R67, in its order. -/
def IllegalRecord (c : Config) (r : Command) : Prop :=
  let op := r.cmd.toNat % 16
  (op = 0 ∨ 8 ≤ op) ∨
  r.cmd.toNat / 64 ≠ 0 ∨
  (r.cmd.getLsbD 4 = true ∧ op ≠ 6 ∧ op ≠ 7) ∨
  (r.cmd.getLsbD 5 = true ∧ op ≠ 4) ∨
  (r.maxlen ≠ none ∧ op ≠ 5 ∧ op ≠ 7) ∨
  (r.maxlen = none ∧ (op = 5 ∨ op = 7)) ∨
  (r.data ≠ none ∧ op ≠ 2 ∧ op ≠ 4 ∧ op ≠ 5 ∧ op ≠ 6) ∨
  (r.data = none ∧ (op = 2 ∨ op = 4 ∨ op = 5 ∨ op = 6)) ∨
  (∃ m, r.maxlen = some m ∧ c.bufBytes < m) ∨
  (∃ d, r.data = some d ∧ 2 ^ c.lenBits - 1 < d.length) ∨
  (∃ d, r.data = some d ∧ op = 6 ∧ r.cmd.getLsbD 4 = true ∧ 2 ^ c.lenBits - 1 < d.length + 2)

/-- The two states agree on everything but COUNT, ERR, RXSTATE, OUTBUF and CRC. -/
def AgreeButResults (s s' : State) : Prop :=
  s'.cfg = s.cfg ∧ s'.busy = s.busy ∧ s'.pending = s.pending ∧ s'.reads = s.reads ∧ s'.abandoned = s.abandoned ∧
    s'.inputs = s.inputs ∧ s'.ready = s.ready ∧ s'.wrote = s.wrote ∧ s'.events = s.events ∧ s'.replies = s.replies ∧ s'.draws = s.draws

/-- A value after a command is the same in both runs, or the command left it alone in both. -/
def SameOrKept {α : Type} (old old' new new' : α) : Prop := new' = new ∨ (new = old ∧ new' = old')

/-- The bytes a list of raw bytes takes on the wire as a frame (30_encoding.md R73). -/
def wireFrame (c : Config) (useCrc : Bool) (payload : List Byte) : List Byte :=
  escaped c payload ++ (if useCrc then escaped c (crc16Be (crcFold 0x0000 payload)) else []) ++ [c.pEnd]

/-- Every ESC in `xs` is immediately followed by a substitute byte (30_encoding.md R74, 40_codec.md R103). -/
def EscapesPaired (c : Config) (xs : List Byte) : Prop :=
  ∀ k, xs[k]? = some c.pEsc → xs[k + 1]? = some c.pSubEnd ∨ xs[k + 1]? = some c.pSubEsc

/-- The SEND of a C bit. -/
def sendInstr (useCrc : Bool) (payload : List Byte) : Instr := if useCrc then .sendC payload else .send payload

/-- The RECEIVE of a C bit. -/
def receiveInstr (useCrc : Bool) (maxlen : Nat) : Instr := if useCrc then .receiveC maxlen else .receive maxlen

/-- The ENCODE of an E bit. -/
def encodeInstr (appendEnd : Bool) (raw : List Byte) : Instr := if appendEnd then .encodeE raw else .encode raw

end Sys2Proof.Machine

open Sys2Proof Sys2Proof.Machine

/-! ## Encoding -/

/-- A record decodes to a command exactly when it fits that command's row of the OP table with its C, E, MAXLEN and DATA
columns (30_encoding.md R62 to R65). -/
def Obligations.DecodeFollowsOpTable : Prop :=
  ∀ (r : Command) (i : Instr), decode r = .ok i ↔ FitsRow r i

/-- Exactly ten CMD values select a command and the other 246 none (30_encoding.md R69, an inference the spec marks
"derived: from rules R61 to R67"). -/
def Obligations.ExactlyTenCmdValuesSelect : Prop :=
  (∀ cmd : Byte, (∃ op, decodeCmd cmd = .ok op) ↔
    cmd ∈ [0x01#8, 0x02#8, 0x03#8, 0x04#8, 0x24#8, 0x05#8, 0x06#8, 0x16#8, 0x07#8, 0x17#8]) ∧
  decodeCmd 0x01 = .ok .crcReset ∧ decodeCmd 0x02 = .ok .crcUpdate ∧ decodeCmd 0x03 = .ok .crcRead ∧
  decodeCmd 0x04 = .ok (.encode false) ∧ decodeCmd 0x24 = .ok (.encode true) ∧ decodeCmd 0x05 = .ok .decode ∧
  decodeCmd 0x06 = .ok (.send false) ∧ decodeCmd 0x16 = .ok (.send true) ∧
  decodeCmd 0x07 = .ok (.receive false) ∧ decodeCmd 0x17 = .ok (.receive true)

/-- The decoder and the encoder agree in both directions: every command comes back from its record with every operand, and
no other record stands for it. -/
def Obligations.DecodeAndEncodeAgree : Prop :=
  ∀ (i : Instr) (r : Command), decode r = .ok i ↔ r = encode i

/-- A few CMD bytes written out from the opcode table, with zero operands. -/
def Obligations.TableWordsDecode : Prop :=
  decodeTableWord 8 0b00000001 = some .crcReset ∧ decodeTableWord 8 0b00100100 = some (.encodeE []) ∧
  decodeTableWord 8 0b00000101 = some (.decode 0 []) ∧ decodeTableWord 8 0b00010110 = some (.sendC []) ∧
  decodeTableWord 8 0b00000111 = some (.receive 0) ∧ decodeTableWord 8 0b01000001 = none ∧
  decodeTableWord 8 0b00001000 = none ∧ decodeTableWord 8 0b00010101 = none

/-! ## Steps, refusals, reset -/

/-- A step on a command record runs the command it decodes to, with nothing around it but taking it from the caller. -/
def Obligations.StepRunsDecodedCommand : Prop :=
  ∀ (s : State) (r : Command) (i : Instr) (rest : List Input),
    s.inputs = .command r :: rest → decode r = .ok i → step s = exec i (s.withInputs rest)

/-- `withFetchWord` makes the next step run the command of that table word. -/
def Obligations.FetchWordRunsNext : Prop :=
  ∀ (s : State) (nbits w : Nat) (i : Instr),
    decodeTableWord nbits w = some i → step (s.withFetchWord nbits w) = exec i s

/-- In an admitted configuration and while idle, a record is refused as IllegalCommand when one of the conditions of
30_encoding.md R67 holds; every other record has a step, where the transport accepts whole the chunks it writes. -/
def Obligations.IllegalCommandsAreRefused : Prop :=
  ∀ (s : State) (r : Command) (rest : List Input),
    s.cfg.WellFormed → s.busy = false → s.inputs = .command r :: rest →
    (IllegalRecord s.cfg r → step s = .refused .illegalCommand) ∧
    (¬ IllegalRecord s.cfg r → (∀ i, decode r = .ok i → WritesAccepted i s) → ∃ t, step s = .next t)

/-- A command issued while BUSY = 1 is refused as BusyCommand (70_reset_and_hazards.md R194). That an illegal record too
gets this name is the model's choice (notes/assumptions/13.md). -/
def Obligations.BusyCoreRefusesCommands : Prop :=
  ∀ (s : State) (r : Command) (rest : List Input),
    s.cfg.WellFormed → s.busy = true → s.inputs = .command r :: rest → step s = .refused .busyCommand

/-- A configuration that breaks one of the distinctness conditions of 00_scope.md R13 is refused, whatever the input, and
also where none comes. -/
def Obligations.AmbiguousConfigurationIsRefused : Prop :=
  ∀ s : State,
    (s.cfg.pEnd = s.cfg.pEsc ∨ s.cfg.pSubEnd = s.cfg.pEnd ∨ s.cfg.pSubEnd = s.cfg.pEsc ∨
      s.cfg.pSubEsc = s.cfg.pEnd ∨ s.cfg.pSubEsc = s.cfg.pEsc ∨ s.cfg.pSubEnd = s.cfg.pSubEsc) →
    step s = .refused .illFormedConfig

/-- Power-on and every assertion of reset leave the registers of 10_state.md R35; reset makes no transport event and leaves
the transport alone; OUTBUF is any value (nothing is claimed of it); after reset the core waits for a command
(70_reset_and_hazards.md R190). The model's choices in it: the name `awaitingCommand` of the wait (notes/assumptions/4.md)
and that reset leaves the configuration and the coming moves alone (notes/assumptions/15.md). -/
def Obligations.ResetGivesResetValues : Prop :=
  (∀ c : Config, let t := State.powerOn c
    t.crc = 0x0000 ∧ t.count = 0 ∧ t.err = .noError ∧ t.rxState = .awaitingData ∧ t.busy = false ∧ t.events = []) ∧
  (∀ (s : State) (rest : List Input), s.cfg.WellFormed → s.inputs = .reset :: rest →
    ∃ t, step s = .next t ∧ t.crc = 0x0000 ∧ t.count = 0 ∧ t.err = .noError ∧ t.rxState = .awaitingData ∧
      t.busy = false ∧ t.pending = none ∧ t.events = s.events ∧ t.ready = s.ready ∧ t.wrote = s.wrote ∧
      t.cfg = s.cfg ∧ t.inputs = rest ∧ (rest = [] → step t = .fault .awaitingCommand))

/-- Reset while BUSY = 1 abandons the RECEIVE; a later answer to the abandoned read, within the contract of
60_exceptions.md R176, is discarded (70_reset_and_hazards.md R191). That the core tells this answer from one to the read of
another RECEIVE that waits meanwhile rests on the model's numbered reads (notes/assumptions/5.md). -/
def Obligations.AbandonedReadAnswerIsDiscarded : Prop :=
  (∀ (s : State) (p : PendingRead) (rest : List Input), s.cfg.WellFormed → s.pending = some p →
    s.inputs = .reset :: rest →
    ∃ t, step s = .next t ∧ t.crc = 0x0000 ∧ t.count = 0 ∧ t.err = .noError ∧ t.rxState = .awaitingData ∧
      t.busy = false ∧ t.pending = none ∧ p ∈ t.abandoned) ∧
  (∀ (s : State) (p : PendingRead) (a : ReadAnswer) (rest : List Input), s.Inv → p ∈ s.abandoned →
    AllowedAnswer s p a → s.inputs = .answer p.id a :: rest →
    step s = .next { s with inputs := rest, abandoned := s.abandoned.filter fun q => decide (q.id ≠ p.id) })

/-- BUSY is 1 from the issue of a command to its completion: every command but a RECEIVE completes in its step, a RECEIVE
is left BUSY exactly when it issues its read, an answer to the read ends it, and a command issued meanwhile is refused
(10_state.md R28). -/
def Obligations.OnlyAWaitingReceiveIsBusy : Prop :=
  (∀ (i : Instr) (s t : State), exec i s = .next t →
    (t.busy = true ↔
      ∃ useCrc maxlen, i = receiveInstr useCrc maxlen ∧ s.nextReady = true ∧ 1 ≤ maxlen)) ∧
  (∀ (s t : State) (p : PendingRead) (a : ReadAnswer), AnsweredBy s p a → step s = .next t → t.busy = false) ∧
  (∀ (i : Instr) (s : State), s.cfg.WellFormed → i.wellFormed s.cfg = true → s.busy = true →
    exec i s = .refused .busyCommand)

/-! ## Checksum Engine -/

/-- CRC_RESET, CMD 0x01, zeroes CRC and writes nothing else (41_checksum.md R115). -/
def Obligations.CrcResetZeroesOnlyCrc : Prop :=
  decode ⟨0x01, none, none⟩ = .ok .crcReset ∧
  ∀ s : State, Takes .crcReset s → exec .crcReset s = .next { s with crc := 0x0000 }

/-- CRC_UPDATE, CMD 0x02, folds the slice into the current CRC, returns the new value and writes nothing else; from CRC = 0
zero bytes leave CRC = 0 (41_checksum.md R116). -/
def Obligations.CrcUpdateFoldsSlice : Prop :=
  (∀ xs : List Byte, decode ⟨0x02, none, some xs⟩ = .ok (.crcUpdate xs)) ∧
  (∀ (s : State) (xs : List Byte), Takes (.crcUpdate xs) s →
    exec (.crcUpdate xs) s =
      .next { s with crc := xs.foldl crcStep s.crc, replies := s.replies ++ [.result (xs.foldl crcStep s.crc)] }) ∧
  (∀ (s : State) (k : Nat), Takes (.crcUpdate (List.replicate k 0x00)) s → s.crc = 0x0000 →
    ∃ t, exec (.crcUpdate (List.replicate k 0x00)) s = .next t ∧ t.crc = 0x0000)

/-- CRC_READ, CMD 0x03, returns CRC and writes nothing (41_checksum.md R117). -/
def Obligations.CrcReadReturnsCrc : Prop :=
  decode ⟨0x03, none, none⟩ = .ok .crcRead ∧
  ∀ s : State, Takes .crcRead s → exec .crcRead s = .next { s with replies := s.replies ++ [.result s.crc] }

/-- Two CRC_UPDATE commands leave and return the CRC of one CRC_UPDATE of the two slices joined (41_checksum.md R118, an
inference the spec marks "derived: from rule R113"). -/
def Obligations.CrcUpdateIsStreaming : Prop :=
  ∀ (s : State) (a b : List Byte), Takes (.crcUpdate (a ++ b)) s →
    ∃ t u v, exec (.crcUpdate a) s = .next t ∧ exec (.crcUpdate b) t = .next u ∧
      exec (.crcUpdate (a ++ b)) s = .next v ∧ u.crc = v.crc ∧ u.replies.getLast? = v.replies.getLast?

/-- The pseudo-command CRC, issued as its two commands, leaves the checksum of its data from the initial state
(30_encoding.md R77). -/
def Obligations.PseudoCrcLeavesChecksum : Prop :=
  ∀ (s : State) (xs : List Byte) (rest : List Input), Takes (.crcUpdate xs) s →
    s.inputs = (pseudoCrc xs).map (fun i => .command (encode i)) ++ rest →
    ∃ t u, step s = .next t ∧ step t = .next u ∧ u.crc = crcFold 0x0000 xs ∧ u.inputs = rest

/-- The bit-serial step and the table-driven step agree on every register and byte, and the entries the spec computed are
right (41_checksum.md R114, marked "from general knowledge" and "derived: from rule R111"). -/
def Obligations.CrcStepIsTableStep : Prop :=
  (∀ (c : Word16) (b : Byte), crcStep c b = crcStepTable c b) ∧
  crcTable 0x00 = 0x0000 ∧ crcTable 0x01 = 0x1189 ∧ crcTable 0x02 = 0x2312 ∧ crcTable 0x80 = 0x8408 ∧
  crcTable 0xFF = 0x0F78

/-- The reflected realisation equals the parameter set read literally, MSB first with input and output reflected, on every
message (41_checksum.md R112, marked "from general knowledge, not in source"). -/
def Obligations.CrcMatchesKermitParameters : Prop :=
  ∀ xs : List Byte, crcMsbFirst xs = crcFold 0x0000 xs

/-- The CRC is linear over bytewise exclusive-or, and a start value contributes through zero bytes only
(41_checksum.md R120, marked "derived"). -/
def Obligations.CrcIsLinear : Prop :=
  (∀ a b : List Byte, a.length = b.length →
    crcFold 0x0000 (List.zipWith (· ^^^ ·) a b) = crcFold 0x0000 a ^^^ crcFold 0x0000 b) ∧
  (∀ (c : Word16) (xs : List Byte),
    crcFold c xs = crcFold c (List.replicate xs.length 0x00) ^^^ crcFold 0x0000 xs)

/-- Changing exactly one byte of a message changes its CRC, and leading zero bytes do not (41_checksum.md R120, marked
"derived"). -/
def Obligations.CrcDetectsOneChangedByte : Prop :=
  (∀ (before after : List Byte) (x y : Byte), x ≠ y →
    crcFold 0x0000 (before ++ x :: after) ≠ crcFold 0x0000 (before ++ y :: after)) ∧
  (∀ (k : Nat) (xs : List Byte), crcFold 0x0000 (List.replicate k 0x00 ++ xs) = crcFold 0x0000 xs)

/-! ## Frame Codec -/

/-- `escaped(xs)` replaces END by ESC, SUB_END and ESC by ESC, SUB_ESC and leaves every other byte, the substitute bytes
among them, unchanged (40_codec.md R81, 30_encoding.md R72). -/
def Obligations.EscapedReplacesSpecialBytes : Prop :=
  ∀ (c : Config), c.WellFormed →
    escaped c [] = [] ∧ (∀ xs ys, escaped c (xs ++ ys) = escaped c xs ++ escaped c ys) ∧
    escaped c [c.pEnd] = [c.pEsc, c.pSubEnd] ∧ escaped c [c.pEsc] = [c.pEsc, c.pSubEsc] ∧
    escaped c [c.pSubEnd] = [c.pSubEnd] ∧ escaped c [c.pSubEsc] = [c.pSubEsc] ∧
    (∀ b, b ≠ c.pEnd → b ≠ c.pEsc → escaped c [b] = [b])

/-- The scan of `encode_chunks`: a run of ordinary bytes before a special byte is one chunk unless it is empty, the special
byte is its own escape pair, and the scan restarts after it; a trailing run is one chunk unless empty
(40_codec.md R82). -/
def Obligations.EncodeChunksScansRuns : Prop :=
  ∀ (c : Config) (run : List Byte), (∀ x ∈ run, ¬ Special c x) →
    encodeChunks c run = (if run = [] then [] else [run]) ∧
    ∀ (b : Byte) (rest : List Byte), Special c b →
      encodeChunks c (run ++ b :: rest) = (if run = [] then [] else [run]) ++ [esc c b] ++ encodeChunks c rest

/-- The chunks are non-empty and join to `escaped(raw)`; each is an escape pair or a run without special bytes, and no two
runs stand side by side (40_codec.md R82; the spec marks the concatenation "derived"). -/
def Obligations.ChunksJoinToEscapedBytes : Prop :=
  ∀ (c : Config) (raw : List Byte), c.WellFormed →
    (encodeChunks c raw).flatten = escaped c raw ∧
    (∀ ch ∈ encodeChunks c raw, ch ≠ [] ∧
      (ch = [c.pEsc, c.pSubEnd] ∨ ch = [c.pEsc, c.pSubEsc] ∨ ∀ x ∈ ch, ¬ Special c x)) ∧
    (encodeChunks c raw).IsChain fun ch ch' =>
      ch = [c.pEsc, c.pSubEnd] ∨ ch = [c.pEsc, c.pSubEsc] ∨ ch' = [c.pEsc, c.pSubEnd] ∨ ch' = [c.pEsc, c.pSubEsc]

/-- ENCODE and ENCODE.E write the chunks of their data, with E = 1 then one END chunk, and nothing on empty data; COUNT is
the number of raw bytes; no other register, no OUTBUF byte and no other event (40_codec.md R83, R84, R85). -/
def Obligations.EncodeWritesEscapedData : Prop :=
  ∀ (appendEnd : Bool) (raw : List Byte) (s : State), Takes (encodeInstr appendEnd raw) s →
    ∃ t, exec (encodeInstr appendEnd raw) s = .next t ∧
      (raw = [] → t.events = s.events) ∧
      (raw ≠ [] →
        t.events = s.events ++
          (encodeChunks s.cfg raw ++ if appendEnd then [[s.cfg.pEnd]] else []).map .write ∧
        t.wire = s.wire ++ escaped s.cfg raw ++ if appendEnd then [s.cfg.pEnd] else []) ∧
      t.count = raw.length ∧
      t.crc = s.crc ∧ t.err = s.err ∧ t.rxState = s.rxState ∧ t.busy = s.busy ∧ SameOutbuf s t ∧
      t.replies = s.replies ∧ t.ready = s.ready ∧
      t.wrote = s.wrote.drop (writesOf (encodeInstr appendEnd raw) s).length ∧ SameFrameState s t

/-- DECODE: the outcome in its priority, COUNT and OUTBUF on success and on error, bytes at or above MAXLEN unchanged, no
transport event, CRC, RXSTATE and BUSY unchanged (40_codec.md R95 to R98). -/
def Obligations.DecodeClassifiesAndWrites : Prop :=
  ∀ (maxlen : Nat) (wire : List Byte) (s : State), Takes (.decode maxlen wire) s →
    ∃ t, exec (.decode maxlen wire) s = .next t ∧
      (let out := (unescape s.cfg wire).1
       let misread := (unescape s.cfg wire).2
       (misread = true → t.err = .errorEncoding) ∧
       (misread = false → maxlen < out.length → t.err = .errorBuffer) ∧
       (misread = false → out.length ≤ maxlen → out = [] → wire ≠ [] → t.err = .errorEncoding) ∧
       (misread = false → out.length ≤ maxlen → (out ≠ [] ∨ wire = []) → t.err = .noError) ∧
       (t.err = .noError → t.count = out.length ∧ OutbufHolds t out) ∧
       (t.err ≠ .noError → t.count = 0)) ∧
      SameOutbufFrom maxlen s t ∧
      t.events = s.events ∧ t.crc = s.crc ∧ t.rxState = s.rxState ∧ t.busy = s.busy ∧
      t.replies = s.replies ∧ t.ready = s.ready ∧ t.wrote = s.wrote ∧ SameFrameState s t

/-- Unescaping non-empty input gives at least one byte, so DECODE's case (c) never happens (40_codec.md R95, an inference
the spec marks "derived: from rule R91"). -/
def Obligations.NonEmptyWireDecodesToSomething : Prop :=
  ∀ (c : Config) (wire : List Byte), wire ≠ [] → (unescape c wire).1 ≠ []

/-- An ESC with a byte that is no substitute emits ESC, consumes both and is a misread; a lone ESC at the end is one too;
wherever either stands after well-formed wire bytes `w`, DECODE reports ERROR_ENCODING and no bytes
(40_codec.md R92, R93). -/
def Obligations.DecodeRejectsMalformedEscapes : Prop :=
  ∀ (maxlen : Nat) (w out rest : List Byte) (x : Byte) (s : State), x ≠ s.cfg.pSubEnd → x ≠ s.cfg.pSubEsc →
    unescape s.cfg w = (out, false) →
    unescape s.cfg (s.cfg.pEsc :: x :: rest) = (s.cfg.pEsc :: (unescape s.cfg rest).1, true) ∧
    unescape s.cfg [s.cfg.pEsc] = ([s.cfg.pEsc], true) ∧
    (Takes (.decode maxlen (w ++ s.cfg.pEsc :: x :: rest)) s →
      ∃ t, exec (.decode maxlen (w ++ s.cfg.pEsc :: x :: rest)) s = .next t ∧ t.err = .errorEncoding ∧ t.count = 0) ∧
    (Takes (.decode maxlen (w ++ [s.cfg.pEsc])) s →
      ∃ t, exec (.decode maxlen (w ++ [s.cfg.pEsc])) s = .next t ∧ t.err = .errorEncoding ∧ t.count = 0)

/-- DECODE of the escaped form of a payload gives the payload back (40_codec.md R101, marked "derived"). -/
def Obligations.DecodeInvertsEscaping : Prop :=
  ∀ (maxlen : Nat) (p : List Byte) (s : State), Takes (.decode maxlen (escaped s.cfg p)) s → p.length ≤ maxlen →
    ∃ t, exec (.decode maxlen (escaped s.cfg p)) s = .next t ∧ t.err = .noError ∧ t.count = p.length ∧ OutbufHolds t p

/-- No END in `escaped(p)`; what ENCODE.E sends of non-empty data holds END once, as its last byte (40_codec.md R102, marked
"derived"). -/
def Obligations.EncodeLeaksNoTerminator : Prop :=
  ∀ (c : Config) (p : List Byte), c.WellFormed →
    c.pEnd ∉ escaped c p ∧
    ∀ (s : State), s.cfg = c → p ≠ [] → Takes (.encodeE p) s →
      ∃ t sent, exec (.encodeE p) s = .next t ∧ t.wire = s.wire ++ sent ∧ sent.count c.pEnd = 1 ∧
        sent.getLast? = some c.pEnd

/-- Every ESC in `escaped(p)` is immediately followed by one of the two substitute bytes (40_codec.md R103, marked
"derived"). -/
def Obligations.EscapesAreNeverSplit : Prop :=
  ∀ (c : Config) (p : List Byte), c.WellFormed → EscapesPaired c (escaped c p)

/-- The length laws of the codec (40_codec.md R104, marked "derived"). -/
def Obligations.CodecLengthLaws : Prop :=
  ∀ (c : Config) (p w : List Byte),
    (escaped c p).length = p.length + (p.filter fun b => decide (Special c b)).length ∧
    p.length ≤ (escaped c p).length ∧ (escaped c p).length ≤ 2 * p.length ∧
    (unescape c w).1.length ≤ w.length

/-- On END-free wires, unescaping without a misread and `escaped` are inverse to each other, so no two payloads share a
wire (40_codec.md R105, marked "derived"). -/
def Obligations.WiresAreCanonical : Prop :=
  ∀ (c : Config) (w : List Byte), c.WellFormed → c.pEnd ∉ w →
    ∀ out, unescape c w = (out, false) ↔ w = escaped c out

/-! ## Framer -/

/-- SEND and SEND.C when the transport is not ready: one IsReady event, no write, CRC unchanged, COUNT 0, ERROR_STREAM
(42_framer.md R132). -/
def Obligations.SendNotReadyWritesNothing : Prop :=
  ∀ (useCrc : Bool) (payload : List Byte) (s : State), Takes (sendInstr useCrc payload) s → s.nextReady = false →
    ∃ t, exec (sendInstr useCrc payload) s = .next t ∧ t.events = s.events ++ [.isReady false] ∧
      t.crc = s.crc ∧ t.count = 0 ∧ t.err = .errorStream ∧ t.rxState = s.rxState ∧ t.busy = s.busy ∧
      SameOutbuf s t ∧ t.replies = s.replies ∧ t.wrote = s.wrote ∧ SameFrameState s t

/-- SEND and SEND.C when ready: CRC reset and, with C = 1, folded over the raw payload; the payload's chunks, the CRC
field's chunks, one END chunk; COUNT the raw bytes encoded; NO_ERROR; RXSTATE, BUSY and OUTBUF unchanged
(42_framer.md R131, R133, R135). -/
def Obligations.SendWritesFrame : Prop :=
  ∀ (useCrc : Bool) (payload : List Byte) (s : State), Takes (sendInstr useCrc payload) s → s.nextReady = true →
    ∃ t, exec (sendInstr useCrc payload) s = .next t ∧
      t.crc = (if useCrc then crcFold 0x0000 payload else 0x0000) ∧
      t.events = s.events ++ [.isReady true] ++ (encodeChunks s.cfg payload).map .write ++
        (if useCrc then (encodeChunks s.cfg (crc16Be (crcFold 0x0000 payload))).map .write else []) ++
        [.write [s.cfg.pEnd]] ∧
      t.count = payload.length + (if useCrc then 2 else 0) ∧ t.err = .noError ∧ t.ready = s.ready.tail ∧
      t.wrote = s.wrote.drop (writesOf (sendInstr useCrc payload) s).length ∧
      t.rxState = s.rxState ∧ t.busy = s.busy ∧ SameOutbuf s t ∧ t.replies = s.replies ∧ SameFrameState s t

/-- What SEND puts on the wire is the frame of 30_encoding.md R73; END stands in it once, at its end, and every ESC in it is
followed by a substitute byte (R74). -/
def Obligations.SentFrameIsAWireFrame : Prop :=
  ∀ (useCrc : Bool) (payload : List Byte) (s : State), Takes (sendInstr useCrc payload) s → s.nextReady = true →
    ∃ t, exec (sendInstr useCrc payload) s = .next t ∧ t.wire = s.wire ++ wireFrame s.cfg useCrc payload ∧
      (wireFrame s.cfg useCrc payload).count s.cfg.pEnd = 1 ∧
      (wireFrame s.cfg useCrc payload).getLast? = some s.cfg.pEnd ∧
      EscapesPaired s.cfg (wireFrame s.cfg useCrc payload)

/-- The CRC field is the register's two bytes, most significant first, and a receiver's joining of them gives the value
back (20_memory.md R46, R47). -/
def Obligations.CrcFieldIsBigEndian : Prop :=
  ∀ c : Word16, crc16Be c = [BitVec.ofNat 8 (c.toNat / 256), BitVec.ofNat 8 (c.toNat % 256)] ∧
    joinBe (hi8 c) (lo8 c) = c

/-- RECEIVE and RECEIVE.C when the transport is not ready: no read, CRC and OUTBUF unchanged, COUNT 0, ERROR_STREAM,
AwaitingData (42_framer.md R142). -/
def Obligations.ReceiveNotReady : Prop :=
  ∀ (useCrc : Bool) (maxlen : Nat) (s : State), Takes (receiveInstr useCrc maxlen) s → s.nextReady = false →
    ∃ t, exec (receiveInstr useCrc maxlen) s = .next t ∧ t.events = s.events ++ [.isReady false] ∧
      t.crc = s.crc ∧ SameOutbuf s t ∧ t.count = 0 ∧ t.err = .errorStream ∧ t.rxState = .awaitingData ∧
      t.busy = false ∧ t.replies = s.replies ∧ t.wrote = s.wrote ∧ SameFrameState s t

/-- RECEIVE and RECEIVE.C with MAXLEN = 0: no read, CRC and OUTBUF unchanged, COUNT 0, ERROR_BUFFER, BufferExhausted
(42_framer.md R143). -/
def Obligations.ReceiveWithNoRoom : Prop :=
  ∀ (useCrc : Bool) (s : State), Takes (receiveInstr useCrc 0) s → s.nextReady = true →
    ∃ t, exec (receiveInstr useCrc 0) s = .next t ∧ t.events = s.events ++ [.isReady true] ∧
      t.crc = s.crc ∧ SameOutbuf s t ∧ t.count = 0 ∧ t.err = .errorBuffer ∧ t.rxState = .bufferExhausted ∧
      t.busy = false ∧ t.replies = s.replies ∧ t.wrote = s.wrote ∧ SameFrameState s t

/-- RECEIVE and RECEIVE.C otherwise: CRC is reset, one read up to END bounded by MAXLEN - 1 is issued, and the core waits
BUSY in ReadingUntilTerminator with COUNT, ERR and OUTBUF unchanged (42_framer.md R141, R144). -/
def Obligations.ReceiveIssuesBoundedRead : Prop :=
  ∀ (useCrc : Bool) (maxlen : Nat) (s : State), Takes (receiveInstr useCrc maxlen) s → s.nextReady = true →
    1 ≤ maxlen →
    ∃ t, exec (receiveInstr useCrc maxlen) s = .next t ∧
      t.events = s.events ++ [.isReady true, .readUntil s.reads s.cfg.pEnd (maxlen - 1)] ∧
      t.crc = 0x0000 ∧ t.busy = true ∧ t.rxState = .readingUntilTerminator ∧
      t.pending = some ⟨s.reads, maxlen, useCrc⟩ ∧ t.reads = s.reads + 1 ∧
      t.count = s.count ∧ t.err = s.err ∧ SameOutbuf s t ∧ t.replies = s.replies ∧ t.cfg = s.cfg ∧
      t.abandoned = s.abandoned ∧ t.inputs = s.inputs ∧ t.wrote = s.wrote

/-- TIMEOUT and OVERFLOW end a waiting RECEIVE with their codes; with no answer the core stays BUSY and the model has no
step (42_framer.md R144). -/
def Obligations.TransportFailureEndsReceive : Prop :=
  (∀ (s : State) (p : PendingRead), AnsweredBy s p .timeout →
    ∃ t, step s = .next t ∧ EndsInError s t p .errorTimeout .timeout ∧ t.crc = s.crc) ∧
  (∀ (s : State) (p : PendingRead), AnsweredBy s p .overflow →
    ∃ t, step s = .next t ∧ EndsInError s t p .errorBuffer .bufferExhausted ∧ t.crc = s.crc) ∧
  (∀ (s : State) (p : PendingRead), Waiting s p → s.inputs = [] → step s = .fault .awaitingTransport)

/-- An empty frame follows `P_EMPTY_FRAME`: a timeout, or a message without bytes, which with C = 1 has no CRC field
(42_framer.md R145). -/
def Obligations.EmptyFrameFollowsPolicy : Prop :=
  ∀ (s : State) (p : PendingRead), AnsweredBy s p (.found []) →
    ∃ t, step s = .next t ∧
      (s.cfg.emptyFrame = .asTimeout → EndsInError s t p .errorTimeout .timeout) ∧
      (s.cfg.emptyFrame = .asEmptyMessage → p.useCrc = false → Delivers s t p []) ∧
      (s.cfg.emptyFrame = .asEmptyMessage → p.useCrc = true →
        EndsInError s t p .errorEncoding .checksumMismatch)

/-- A misread in the received bytes gives ERROR_ENCODING and EncodingError; no received frame can overflow OUTBUF or decode
to nothing (42_framer.md R146). -/
def Obligations.ReceivedMisreadIsEncodingError : Prop :=
  ∀ (s : State) (p : PendingRead) (bs : List Byte), AnsweredBy s p (.found bs) → AllowedBytes s p bs →
    ((unescape s.cfg bs).2 = true →
      ∃ t, step s = .next t ∧ EndsInError s t p .errorEncoding .encodingError ∧ t.crc = s.crc) ∧
    (unescape s.cfg bs).1.length < p.maxlen ∧ (bs ≠ [] → (unescape s.cfg bs).1 ≠ [])

/-- A frame that decodes without a misread, and is not an empty frame read as a timeout. With C = 1 its last two bytes are
the CRC field, high byte first, and CRC becomes the payload's: equal is Delivered, different is ChecksumMismatch, and so is
a frame too short for a field. With C = 0 the whole frame is Delivered and CRC is 0x0000 (42_framer.md R147, R148). -/
def Obligations.ReceiveChecksAndDelivers : Prop :=
  ∀ (s : State) (p : PendingRead) (bs out : List Byte), AnsweredBy s p (.found bs) → AllowedBytes s p bs →
    (bs ≠ [] ∨ s.cfg.emptyFrame = .asEmptyMessage) → unescape s.cfg bs = (out, false) →
    ∃ t, step s = .next t ∧
      (p.useCrc = true → ∀ (payload : List Byte) (hi lo : Byte), out = payload ++ [hi, lo] →
        t.crc = crcFold 0x0000 payload ∧
        ((crcFold 0x0000 payload).toNat = 256 * hi.toNat + lo.toNat → Delivers s t p payload) ∧
        ((crcFold 0x0000 payload).toNat ≠ 256 * hi.toNat + lo.toNat →
          EndsInError s t p .errorEncoding .checksumMismatch)) ∧
      (p.useCrc = true → out.length < 2 → t.crc = 0x0000 ∧ EndsInError s t p .errorEncoding .checksumMismatch) ∧
      (p.useCrc = false → t.crc = 0x0000 ∧ Delivers s t p out)

/-- Whatever an admitted answer brings, the RECEIVE ends in a terminal state with the outcome code of that state, and with
COUNT = 0 unless it is Delivered (42_framer.md R150, R151). -/
def Obligations.ReceiveEndsInTerminalState : Prop :=
  ∀ (s : State) (p : PendingRead) (a : ReadAnswer), AnsweredBy s p a →
    AllowedAnswer s p a →
    ∃ t, step s = .next t ∧
      ((t.rxState = .timeout ∧ t.err = .errorTimeout) ∨ (t.rxState = .bufferExhausted ∧ t.err = .errorBuffer) ∨
        (t.rxState = .encodingError ∧ t.err = .errorEncoding) ∨
        (t.rxState = .checksumMismatch ∧ t.err = .errorEncoding) ∨ (t.rxState = .delivered ∧ t.err = .noError)) ∧
      (t.rxState ≠ .delivered → t.count = 0) ∧ SameOutbufFrom p.maxlen s t ∧ CompletionFrame s t

/-- An answer outside the contract of 60_exceptions.md R176 is refused: to the awaited read or to an abandoned one, bytes that
are too many or hold the terminator; to a `Write`, a number that is not the chunk's length. So is an answer to a read that is
neither awaited nor abandoned (the model's choice, notes/assumptions/5.md). -/
def Obligations.TransportContractIsEnforced : Prop :=
  (∀ (s : State) (p : PendingRead) (bs : List Byte), AnsweredBy s p (.found bs) → ¬ AllowedBytes s p bs →
    step s = .refused .transportContract) ∧
  (∀ (s : State) (p : PendingRead) (bs : List Byte) (rest : List Input), s.Inv → p ∈ s.abandoned →
    s.inputs = .answer p.id (.found bs) :: rest → ¬ AllowedBytes s p bs → step s = .refused .transportContract) ∧
  (∀ (i : Instr) (s : State) (k n : Nat) (chunk : List Byte), s.cfg.WellFormed → s.busy = false →
    i.wellFormed s.cfg = true → (writesOf i s)[k]? = some chunk → s.wrote[k]? = some n → n ≠ chunk.length →
    exec i s = .refused .transportContract) ∧
  (∀ (s : State) (readId : Nat) (a : ReadAnswer) (rest : List Input), s.Inv →
    s.inputs = .answer readId a :: rest → (∀ p, s.pending = some p → p.id ≠ readId) →
    (∀ p ∈ s.abandoned, p.id ≠ readId) → step s = .refused .transportContract)

/-- What SEND writes, a RECEIVE with the same C and room for it delivers, except an empty frame read as a timeout
(42_framer.md R154, marked "derived"). -/
def Obligations.SendReceiveRoundTrip : Prop :=
  ∀ (useCrc : Bool) (payload w : List Byte) (s t r : State) (p : PendingRead),
    Takes (sendInstr useCrc payload) s → s.nextReady = true → exec (sendInstr useCrc payload) s = .next t →
    t.wire = s.wire ++ w ++ [s.cfg.pEnd] →
    r.cfg = s.cfg → AnsweredBy r p (.found w) → p.useCrc = useCrc → w.length + 1 ≤ p.maxlen →
    ∃ u, step r = .next u ∧
      (¬ (payload = [] ∧ useCrc = false ∧ s.cfg.emptyFrame = .asTimeout) → Delivers r u p payload) ∧
      (payload = [] ∧ useCrc = false ∧ s.cfg.emptyFrame = .asTimeout → EndsInError r u p .errorTimeout .timeout)

/-- With C = 1 a decoded frame that differs from the sent one in exactly one byte, of the payload or of the CRC field, is a
ChecksumMismatch (42_framer.md R155, marked "derived"). -/
def Obligations.OneCorruptedByteIsDetected : Prop :=
  ∀ (s : State) (p : PendingRead) (payload before after bs : List Byte) (x y : Byte),
    payload ++ crc16Be (crcFold 0x0000 payload) = before ++ x :: after → x ≠ y →
    AnsweredBy s p (.found bs) → AllowedBytes s p bs → p.useCrc = true →
    unescape s.cfg bs = (before ++ y :: after, false) →
    ∃ t, step s = .next t ∧ EndsInError s t p .errorEncoding .checksumMismatch

/-! ## The register port and OUTBUF -/

/-- The numeric codes of ERR and RXSTATE (30_encoding.md R70, R71). -/
def Obligations.OutcomeAndStateCodes : Prop :=
  (ErrCode.noError.code = 0 ∧ ErrCode.errorTimeout.code = 1 ∧ ErrCode.errorBuffer.code = 2 ∧
    ErrCode.errorStream.code = 3 ∧ ErrCode.errorEncoding.code = 4) ∧
  (RxState.awaitingData.code = 0 ∧ RxState.readingUntilTerminator.code = 1 ∧ RxState.decoding.code = 2 ∧
    RxState.timeout.code = 3 ∧ RxState.bufferExhausted.code = 4 ∧ RxState.encodingError.code = 5 ∧
    RxState.checksumMismatch.code = 6 ∧ RxState.delivered.code = 7)

/-- The register port: STATUS exactly at all times, CRC and COUNT exactly while BUSY = 0 and some value of their width
while BUSY = 1, every other number refused; a read changes no register, no OUTBUF byte and makes no event
(10_state.md R36). -/
def Obligations.RegisterPortReads : Prop :=
  ∀ (s : State) (n : Nat) (rest : List Input), s.cfg.WellFormed → s.inputs = .readRegister n :: rest →
    (3 ≤ n → step s = .refused (.badRegisterNumber n)) ∧
    (n < 3 → ∃ t value, step s = .next t ∧ t.replies = s.replies ++ [value] ∧
      (n = 0 → ∃ v : BitVec 8, value = .status v ∧ v.extractLsb' 0 3 = s.err.code ∧
        v.extractLsb' 3 3 = s.rxState.code ∧ v.getLsbD 6 = s.busy ∧ v.getLsbD 7 = false) ∧
      (n = 1 → ∃ v, value = .crc v ∧ (s.busy = false → v = s.crc)) ∧
      (n = 2 → ∃ v, value = .count v ∧ (s.busy = false → v = s.count) ∧ (s.busy = true → v < 2 ^ s.cfg.lenBits)) ∧
      t.crc = s.crc ∧ t.count = s.count ∧ t.err = s.err ∧ t.rxState = s.rxState ∧ t.busy = s.busy ∧
      SameOutbuf s t ∧ t.events = s.events ∧ t.ready = s.ready ∧ t.wrote = s.wrote ∧ t.cfg = s.cfg ∧ t.pending = s.pending ∧
      t.reads = s.reads ∧ t.abandoned = s.abandoned ∧ t.inputs = rest)

/-- OUTBUF is read by address while BUSY = 0 and the read changes nothing (20_memory.md R40); an address that does not
exist is a fault (the model's choice, notes/assumptions/11.md). -/
def Obligations.OutbufIsReadByAddress : Prop :=
  ∀ (s : State) (addr : Nat) (rest : List Input), s.cfg.WellFormed → s.busy = false →
    s.inputs = .readOutbuf addr :: rest →
    (addr < s.cfg.bufBytes →
      step s = .next { s with inputs := rest, replies := s.replies ++ [.outbuf addr (s.outbufByte addr)] }) ∧
    (s.cfg.bufBytes ≤ addr → step s = .fault (.outbufAddress addr))

/-! ## The whole machine -/

/-- Who writes what: of the commands, CRC is written only by CRC_RESET, CRC_UPDATE, SEND and RECEIVE, COUNT not by the CRC
commands, ERR only by DECODE, SEND and RECEIVE, RXSTATE only by RECEIVE, and in the step of a command OUTBUF only by a
DECODE below its MAXLEN; the caller's reads write none of them (10_state.md R23, R25, R26, R27, R29). The step of a
RECEIVE's answer and reset are stated on their own. -/
def Obligations.OnlyNamedCommandsWrite : Prop :=
  (∀ (i : Instr) (s t : State), exec i s = .next t →
    (t.crc ≠ s.crc → i = .crcReset ∨ (∃ d, i = .crcUpdate d) ∨ (∃ c d, i = sendInstr c d) ∨
      ∃ c m, i = receiveInstr c m) ∧
    (t.count ≠ s.count → (∃ e d, i = encodeInstr e d) ∨ (∃ m d, i = .decode m d) ∨ (∃ c d, i = sendInstr c d) ∨
      ∃ c m, i = receiveInstr c m) ∧
    (t.err ≠ s.err → (∃ m d, i = .decode m d) ∨ (∃ c d, i = sendInstr c d) ∨ ∃ c m, i = receiveInstr c m) ∧
    (t.rxState ≠ s.rxState → ∃ c m, i = receiveInstr c m) ∧
    (∀ a, t.outbufByte a ≠ s.outbufByte a → ∃ m d, i = .decode m d ∧ a < m)) ∧
  (∀ (s t : State) (rest : List Input), (∃ n, s.inputs = .readRegister n :: rest) ∨
    (∃ n, s.inputs = .readOutbuf n :: rest) → step s = .next t →
    t.crc = s.crc ∧ t.count = s.count ∧ t.err = s.err ∧ t.rxState = s.rxState ∧ t.busy = s.busy ∧ SameOutbuf s t)

/-- No step writes the configuration (10_state.md R30). -/
def Obligations.ConfigurationIsNeverWritten : Prop :=
  ∀ s t : State, step s = .next t → t.cfg = s.cfg

/-- Every step only appends to TX, and only non-empty chunks (20_memory.md R42); a step that writes is an ENCODE, an
ENCODE.E, a SEND or a SEND.C. -/
def Obligations.TransmitStreamOnlyGrows : Prop :=
  ∀ s t : State, step s = .next t →
    ∃ new, t.tx = s.tx ++ new ∧ (∀ ch ∈ new, ch ≠ []) ∧
      (new ≠ [] → ∃ r rest i, s.inputs = .command r :: rest ∧ decode r = .ok i ∧
        ((∃ e d, i = encodeInstr e d) ∨ ∃ c d, i = sendInstr c d))

/-- Nothing a command does depends on COUNT, ERR, RXSTATE or OUTBUF as an earlier command left them, and only CRC_UPDATE
and CRC_READ use CRC as it was left: from two states that differ only there, a command makes the same events, reads and
replies and writes the same values, or leaves the register alone in both (10_state.md R32). -/
def Obligations.NoStateLeaksBetweenMessages : Prop :=
  ∀ (i : Instr) (s s' t : State), AgreeButResults s s' →
    ((∃ d, i = .crcUpdate d) ∨ i = .crcRead → s'.crc = s.crc) → exec i s = .next t →
    ∃ t', exec i s' = .next t' ∧ AgreeButResults t t' ∧
      SameOrKept s.crc s'.crc t.crc t'.crc ∧ SameOrKept s.count s'.count t.count t'.count ∧
      SameOrKept s.err s'.err t.err t'.err ∧ SameOrKept s.rxState s'.rxState t.rxState t'.rxState ∧
      ∀ a, SameOrKept (s.outbufByte a) (s'.outbufByte a) (t.outbufByte a) (t'.outbufByte a)

/-- Every step from a state that meets the invariant gives a state that meets it: COUNT fits its width, OUTBUF stays
canonical and inside its addresses, BUSY, RXSTATE and the outstanding read agree, Decoding is never held, TX chunks are
non-empty. -/
def Obligations.StepKeepsInv : Prop :=
  ∀ s t : State, s.Inv → step s = .next t → t.Inv

/-- Power-on in an admitted configuration, and `State.reset`, meet the invariant. -/
def Obligations.ResetMeetsInv : Prop :=
  (∀ c : Config, c.WellFormed → (State.powerOn c).Inv) ∧ State.reset.Inv
end

