-- ==== Sys2Proof/Laws/State.lean ====
section
/-! SUPPORT. One lemma per field per update of State, true by rfl: no later proof unfolds a record update. -/

namespace Sys2Proof.Machine

variable (s : State)

@[simp] theorem State.setCrc_cfg (c : Word16) : (s.setCrc c).cfg = s.cfg := rfl
@[simp] theorem State.setCrc_crc (c : Word16) : (s.setCrc c).crc = c := rfl
@[simp] theorem State.setCrc_count (c : Word16) : (s.setCrc c).count = s.count := rfl
@[simp] theorem State.setCrc_err (c : Word16) : (s.setCrc c).err = s.err := rfl
@[simp] theorem State.setCrc_rxState (c : Word16) : (s.setCrc c).rxState = s.rxState := rfl
@[simp] theorem State.setCrc_busy (c : Word16) : (s.setCrc c).busy = s.busy := rfl
@[simp] theorem State.setCrc_outbuf (c : Word16) : (s.setCrc c).outbuf = s.outbuf := rfl
@[simp] theorem State.setCrc_outbufStamp (c : Word16) : (s.setCrc c).outbufStamp = s.outbufStamp := rfl
@[simp] theorem State.setCrc_pending (c : Word16) : (s.setCrc c).pending = s.pending := rfl
@[simp] theorem State.setCrc_reads (c : Word16) : (s.setCrc c).reads = s.reads := rfl
@[simp] theorem State.setCrc_abandoned (c : Word16) : (s.setCrc c).abandoned = s.abandoned := rfl
@[simp] theorem State.setCrc_inputs (c : Word16) : (s.setCrc c).inputs = s.inputs := rfl
@[simp] theorem State.setCrc_ready (c : Word16) : (s.setCrc c).ready = s.ready := rfl
@[simp] theorem State.setCrc_wrote (c : Word16) : (s.setCrc c).wrote = s.wrote := rfl
@[simp] theorem State.setCrc_events (c : Word16) : (s.setCrc c).events = s.events := rfl
@[simp] theorem State.setCrc_replies (c : Word16) : (s.setCrc c).replies = s.replies := rfl
@[simp] theorem State.setCrc_draws (c : Word16) : (s.setCrc c).draws = s.draws := rfl

@[simp] theorem State.setCount_cfg (n : Nat) : (s.setCount n).cfg = s.cfg := rfl
@[simp] theorem State.setCount_crc (n : Nat) : (s.setCount n).crc = s.crc := rfl
@[simp] theorem State.setCount_count (n : Nat) : (s.setCount n).count = n := rfl
@[simp] theorem State.setCount_err (n : Nat) : (s.setCount n).err = s.err := rfl
@[simp] theorem State.setCount_rxState (n : Nat) : (s.setCount n).rxState = s.rxState := rfl
@[simp] theorem State.setCount_busy (n : Nat) : (s.setCount n).busy = s.busy := rfl
@[simp] theorem State.setCount_outbuf (n : Nat) : (s.setCount n).outbuf = s.outbuf := rfl
@[simp] theorem State.setCount_outbufStamp (n : Nat) : (s.setCount n).outbufStamp = s.outbufStamp := rfl
@[simp] theorem State.setCount_pending (n : Nat) : (s.setCount n).pending = s.pending := rfl
@[simp] theorem State.setCount_reads (n : Nat) : (s.setCount n).reads = s.reads := rfl
@[simp] theorem State.setCount_abandoned (n : Nat) : (s.setCount n).abandoned = s.abandoned := rfl
@[simp] theorem State.setCount_inputs (n : Nat) : (s.setCount n).inputs = s.inputs := rfl
@[simp] theorem State.setCount_ready (n : Nat) : (s.setCount n).ready = s.ready := rfl
@[simp] theorem State.setCount_wrote (n : Nat) : (s.setCount n).wrote = s.wrote := rfl
@[simp] theorem State.setCount_events (n : Nat) : (s.setCount n).events = s.events := rfl
@[simp] theorem State.setCount_replies (n : Nat) : (s.setCount n).replies = s.replies := rfl
@[simp] theorem State.setCount_draws (n : Nat) : (s.setCount n).draws = s.draws := rfl

@[simp] theorem State.setErr_cfg (e : ErrCode) : (s.setErr e).cfg = s.cfg := rfl
@[simp] theorem State.setErr_crc (e : ErrCode) : (s.setErr e).crc = s.crc := rfl
@[simp] theorem State.setErr_count (e : ErrCode) : (s.setErr e).count = s.count := rfl
@[simp] theorem State.setErr_err (e : ErrCode) : (s.setErr e).err = e := rfl
@[simp] theorem State.setErr_rxState (e : ErrCode) : (s.setErr e).rxState = s.rxState := rfl
@[simp] theorem State.setErr_busy (e : ErrCode) : (s.setErr e).busy = s.busy := rfl
@[simp] theorem State.setErr_outbuf (e : ErrCode) : (s.setErr e).outbuf = s.outbuf := rfl
@[simp] theorem State.setErr_outbufStamp (e : ErrCode) : (s.setErr e).outbufStamp = s.outbufStamp := rfl
@[simp] theorem State.setErr_pending (e : ErrCode) : (s.setErr e).pending = s.pending := rfl
@[simp] theorem State.setErr_reads (e : ErrCode) : (s.setErr e).reads = s.reads := rfl
@[simp] theorem State.setErr_abandoned (e : ErrCode) : (s.setErr e).abandoned = s.abandoned := rfl
@[simp] theorem State.setErr_inputs (e : ErrCode) : (s.setErr e).inputs = s.inputs := rfl
@[simp] theorem State.setErr_ready (e : ErrCode) : (s.setErr e).ready = s.ready := rfl
@[simp] theorem State.setErr_wrote (e : ErrCode) : (s.setErr e).wrote = s.wrote := rfl
@[simp] theorem State.setErr_events (e : ErrCode) : (s.setErr e).events = s.events := rfl
@[simp] theorem State.setErr_replies (e : ErrCode) : (s.setErr e).replies = s.replies := rfl
@[simp] theorem State.setErr_draws (e : ErrCode) : (s.setErr e).draws = s.draws := rfl

@[simp] theorem State.setRxState_cfg (r : RxState) : (s.setRxState r).cfg = s.cfg := rfl
@[simp] theorem State.setRxState_crc (r : RxState) : (s.setRxState r).crc = s.crc := rfl
@[simp] theorem State.setRxState_count (r : RxState) : (s.setRxState r).count = s.count := rfl
@[simp] theorem State.setRxState_err (r : RxState) : (s.setRxState r).err = s.err := rfl
@[simp] theorem State.setRxState_rxState (r : RxState) : (s.setRxState r).rxState = r := rfl
@[simp] theorem State.setRxState_busy (r : RxState) : (s.setRxState r).busy = s.busy := rfl
@[simp] theorem State.setRxState_outbuf (r : RxState) : (s.setRxState r).outbuf = s.outbuf := rfl
@[simp] theorem State.setRxState_outbufStamp (r : RxState) : (s.setRxState r).outbufStamp = s.outbufStamp := rfl
@[simp] theorem State.setRxState_pending (r : RxState) : (s.setRxState r).pending = s.pending := rfl
@[simp] theorem State.setRxState_reads (r : RxState) : (s.setRxState r).reads = s.reads := rfl
@[simp] theorem State.setRxState_abandoned (r : RxState) : (s.setRxState r).abandoned = s.abandoned := rfl
@[simp] theorem State.setRxState_inputs (r : RxState) : (s.setRxState r).inputs = s.inputs := rfl
@[simp] theorem State.setRxState_ready (r : RxState) : (s.setRxState r).ready = s.ready := rfl
@[simp] theorem State.setRxState_wrote (r : RxState) : (s.setRxState r).wrote = s.wrote := rfl
@[simp] theorem State.setRxState_events (r : RxState) : (s.setRxState r).events = s.events := rfl
@[simp] theorem State.setRxState_replies (r : RxState) : (s.setRxState r).replies = s.replies := rfl
@[simp] theorem State.setRxState_draws (r : RxState) : (s.setRxState r).draws = s.draws := rfl

@[simp] theorem State.reply_cfg (r : Reply) : (s.reply r).cfg = s.cfg := rfl
@[simp] theorem State.reply_crc (r : Reply) : (s.reply r).crc = s.crc := rfl
@[simp] theorem State.reply_count (r : Reply) : (s.reply r).count = s.count := rfl
@[simp] theorem State.reply_err (r : Reply) : (s.reply r).err = s.err := rfl
@[simp] theorem State.reply_rxState (r : Reply) : (s.reply r).rxState = s.rxState := rfl
@[simp] theorem State.reply_busy (r : Reply) : (s.reply r).busy = s.busy := rfl
@[simp] theorem State.reply_outbuf (r : Reply) : (s.reply r).outbuf = s.outbuf := rfl
@[simp] theorem State.reply_outbufStamp (r : Reply) : (s.reply r).outbufStamp = s.outbufStamp := rfl
@[simp] theorem State.reply_pending (r : Reply) : (s.reply r).pending = s.pending := rfl
@[simp] theorem State.reply_reads (r : Reply) : (s.reply r).reads = s.reads := rfl
@[simp] theorem State.reply_abandoned (r : Reply) : (s.reply r).abandoned = s.abandoned := rfl
@[simp] theorem State.reply_inputs (r : Reply) : (s.reply r).inputs = s.inputs := rfl
@[simp] theorem State.reply_ready (r : Reply) : (s.reply r).ready = s.ready := rfl
@[simp] theorem State.reply_wrote (r : Reply) : (s.reply r).wrote = s.wrote := rfl
@[simp] theorem State.reply_events (r : Reply) : (s.reply r).events = s.events := rfl
@[simp] theorem State.reply_replies (r : Reply) : (s.reply r).replies = s.replies ++ [r] := rfl
@[simp] theorem State.reply_draws (r : Reply) : (s.reply r).draws = s.draws := rfl

@[simp] theorem State.replyFree_cfg (r : Reply) : (s.replyFree r).cfg = s.cfg := rfl
@[simp] theorem State.replyFree_crc (r : Reply) : (s.replyFree r).crc = s.crc := rfl
@[simp] theorem State.replyFree_count (r : Reply) : (s.replyFree r).count = s.count := rfl
@[simp] theorem State.replyFree_err (r : Reply) : (s.replyFree r).err = s.err := rfl
@[simp] theorem State.replyFree_rxState (r : Reply) : (s.replyFree r).rxState = s.rxState := rfl
@[simp] theorem State.replyFree_busy (r : Reply) : (s.replyFree r).busy = s.busy := rfl
@[simp] theorem State.replyFree_outbuf (r : Reply) : (s.replyFree r).outbuf = s.outbuf := rfl
@[simp] theorem State.replyFree_outbufStamp (r : Reply) : (s.replyFree r).outbufStamp = s.outbufStamp := rfl
@[simp] theorem State.replyFree_pending (r : Reply) : (s.replyFree r).pending = s.pending := rfl
@[simp] theorem State.replyFree_reads (r : Reply) : (s.replyFree r).reads = s.reads := rfl
@[simp] theorem State.replyFree_abandoned (r : Reply) : (s.replyFree r).abandoned = s.abandoned := rfl
@[simp] theorem State.replyFree_inputs (r : Reply) : (s.replyFree r).inputs = s.inputs := rfl
@[simp] theorem State.replyFree_ready (r : Reply) : (s.replyFree r).ready = s.ready := rfl
@[simp] theorem State.replyFree_wrote (r : Reply) : (s.replyFree r).wrote = s.wrote := rfl
@[simp] theorem State.replyFree_events (r : Reply) : (s.replyFree r).events = s.events := rfl
@[simp] theorem State.replyFree_replies (r : Reply) : (s.replyFree r).replies = s.replies ++ [r] := rfl
@[simp] theorem State.replyFree_draws (r : Reply) : (s.replyFree r).draws = s.draws + 1 := rfl

@[simp] theorem State.askReady_cfg : s.askReady.cfg = s.cfg := rfl
@[simp] theorem State.askReady_crc : s.askReady.crc = s.crc := rfl
@[simp] theorem State.askReady_count : s.askReady.count = s.count := rfl
@[simp] theorem State.askReady_err : s.askReady.err = s.err := rfl
@[simp] theorem State.askReady_rxState : s.askReady.rxState = s.rxState := rfl
@[simp] theorem State.askReady_busy : s.askReady.busy = s.busy := rfl
@[simp] theorem State.askReady_outbuf : s.askReady.outbuf = s.outbuf := rfl
@[simp] theorem State.askReady_outbufStamp : s.askReady.outbufStamp = s.outbufStamp := rfl
@[simp] theorem State.askReady_pending : s.askReady.pending = s.pending := rfl
@[simp] theorem State.askReady_reads : s.askReady.reads = s.reads := rfl
@[simp] theorem State.askReady_abandoned : s.askReady.abandoned = s.abandoned := rfl
@[simp] theorem State.askReady_inputs : s.askReady.inputs = s.inputs := rfl
@[simp] theorem State.askReady_ready : s.askReady.ready = s.ready.tail := rfl
@[simp] theorem State.askReady_wrote : s.askReady.wrote = s.wrote := rfl
@[simp] theorem State.askReady_events : s.askReady.events = s.events ++ [.isReady s.nextReady] := rfl
@[simp] theorem State.askReady_replies : s.askReady.replies = s.replies := rfl
@[simp] theorem State.askReady_draws : s.askReady.draws = (if s.ready = [] then s.draws + 1 else s.draws) := rfl

@[simp] theorem State.writeChunks_cfg (cs : List (List Byte)) : (s.writeChunks cs).cfg = s.cfg := rfl
@[simp] theorem State.writeChunks_crc (cs : List (List Byte)) : (s.writeChunks cs).crc = s.crc := rfl
@[simp] theorem State.writeChunks_count (cs : List (List Byte)) : (s.writeChunks cs).count = s.count := rfl
@[simp] theorem State.writeChunks_err (cs : List (List Byte)) : (s.writeChunks cs).err = s.err := rfl
@[simp] theorem State.writeChunks_rxState (cs : List (List Byte)) : (s.writeChunks cs).rxState = s.rxState := rfl
@[simp] theorem State.writeChunks_busy (cs : List (List Byte)) : (s.writeChunks cs).busy = s.busy := rfl
@[simp] theorem State.writeChunks_outbuf (cs : List (List Byte)) : (s.writeChunks cs).outbuf = s.outbuf := rfl
@[simp] theorem State.writeChunks_outbufStamp (cs : List (List Byte)) : (s.writeChunks cs).outbufStamp = s.outbufStamp := rfl
@[simp] theorem State.writeChunks_pending (cs : List (List Byte)) : (s.writeChunks cs).pending = s.pending := rfl
@[simp] theorem State.writeChunks_reads (cs : List (List Byte)) : (s.writeChunks cs).reads = s.reads := rfl
@[simp] theorem State.writeChunks_abandoned (cs : List (List Byte)) : (s.writeChunks cs).abandoned = s.abandoned := rfl
@[simp] theorem State.writeChunks_inputs (cs : List (List Byte)) : (s.writeChunks cs).inputs = s.inputs := rfl
@[simp] theorem State.writeChunks_ready (cs : List (List Byte)) : (s.writeChunks cs).ready = s.ready := rfl
@[simp] theorem State.writeChunks_wrote (cs : List (List Byte)) : (s.writeChunks cs).wrote = s.wrote.drop cs.length := rfl
@[simp] theorem State.writeChunks_events (cs : List (List Byte)) : (s.writeChunks cs).events = s.events ++ cs.map .write := rfl
@[simp] theorem State.writeChunks_replies (cs : List (List Byte)) : (s.writeChunks cs).replies = s.replies := rfl
@[simp] theorem State.writeChunks_draws (cs : List (List Byte)) : (s.writeChunks cs).draws = s.draws := rfl

@[simp] theorem State.readUntilEnd_cfg (m : Nat) (u : Bool) : (s.readUntilEnd m u).cfg = s.cfg := rfl
@[simp] theorem State.readUntilEnd_crc (m : Nat) (u : Bool) : (s.readUntilEnd m u).crc = s.crc := rfl
@[simp] theorem State.readUntilEnd_count (m : Nat) (u : Bool) : (s.readUntilEnd m u).count = s.count := rfl
@[simp] theorem State.readUntilEnd_err (m : Nat) (u : Bool) : (s.readUntilEnd m u).err = s.err := rfl
@[simp] theorem State.readUntilEnd_rxState (m : Nat) (u : Bool) : (s.readUntilEnd m u).rxState = .readingUntilTerminator := rfl
@[simp] theorem State.readUntilEnd_busy (m : Nat) (u : Bool) : (s.readUntilEnd m u).busy = true := rfl
@[simp] theorem State.readUntilEnd_outbuf (m : Nat) (u : Bool) : (s.readUntilEnd m u).outbuf = s.outbuf := rfl
@[simp] theorem State.readUntilEnd_outbufStamp (m : Nat) (u : Bool) : (s.readUntilEnd m u).outbufStamp = s.outbufStamp := rfl
@[simp] theorem State.readUntilEnd_pending (m : Nat) (u : Bool) : (s.readUntilEnd m u).pending = some ⟨s.reads, m, u⟩ := rfl
@[simp] theorem State.readUntilEnd_reads (m : Nat) (u : Bool) : (s.readUntilEnd m u).reads = s.reads + 1 := rfl
@[simp] theorem State.readUntilEnd_abandoned (m : Nat) (u : Bool) : (s.readUntilEnd m u).abandoned = s.abandoned := rfl
@[simp] theorem State.readUntilEnd_inputs (m : Nat) (u : Bool) : (s.readUntilEnd m u).inputs = s.inputs := rfl
@[simp] theorem State.readUntilEnd_ready (m : Nat) (u : Bool) : (s.readUntilEnd m u).ready = s.ready := rfl
@[simp] theorem State.readUntilEnd_wrote (m : Nat) (u : Bool) : (s.readUntilEnd m u).wrote = s.wrote := rfl
@[simp] theorem State.readUntilEnd_events (m : Nat) (u : Bool) : (s.readUntilEnd m u).events = s.events ++ [.readUntil s.reads s.cfg.pEnd (m - 1)] := rfl
@[simp] theorem State.readUntilEnd_replies (m : Nat) (u : Bool) : (s.readUntilEnd m u).replies = s.replies := rfl
@[simp] theorem State.readUntilEnd_draws (m : Nat) (u : Bool) : (s.readUntilEnd m u).draws = s.draws := rfl

@[simp] theorem State.endRead_cfg : s.endRead.cfg = s.cfg := rfl
@[simp] theorem State.endRead_crc : s.endRead.crc = s.crc := rfl
@[simp] theorem State.endRead_count : s.endRead.count = s.count := rfl
@[simp] theorem State.endRead_err : s.endRead.err = s.err := rfl
@[simp] theorem State.endRead_rxState : s.endRead.rxState = s.rxState := rfl
@[simp] theorem State.endRead_busy : s.endRead.busy = false := rfl
@[simp] theorem State.endRead_outbuf : s.endRead.outbuf = s.outbuf := rfl
@[simp] theorem State.endRead_outbufStamp : s.endRead.outbufStamp = s.outbufStamp := rfl
@[simp] theorem State.endRead_pending : s.endRead.pending = none := rfl
@[simp] theorem State.endRead_reads : s.endRead.reads = s.reads := rfl
@[simp] theorem State.endRead_abandoned : s.endRead.abandoned = s.abandoned := rfl
@[simp] theorem State.endRead_inputs : s.endRead.inputs = s.inputs := rfl
@[simp] theorem State.endRead_ready : s.endRead.ready = s.ready := rfl
@[simp] theorem State.endRead_wrote : s.endRead.wrote = s.wrote := rfl
@[simp] theorem State.endRead_events : s.endRead.events = s.events := rfl
@[simp] theorem State.endRead_replies : s.endRead.replies = s.replies := rfl
@[simp] theorem State.endRead_draws : s.endRead.draws = s.draws := rfl

@[simp] theorem State.fillOutbuf_cfg (p : List Byte) (m : Nat) : (s.fillOutbuf p m).cfg = s.cfg := rfl
@[simp] theorem State.fillOutbuf_crc (p : List Byte) (m : Nat) : (s.fillOutbuf p m).crc = s.crc := rfl
@[simp] theorem State.fillOutbuf_count (p : List Byte) (m : Nat) : (s.fillOutbuf p m).count = s.count := rfl
@[simp] theorem State.fillOutbuf_err (p : List Byte) (m : Nat) : (s.fillOutbuf p m).err = s.err := rfl
@[simp] theorem State.fillOutbuf_rxState (p : List Byte) (m : Nat) : (s.fillOutbuf p m).rxState = s.rxState := rfl
@[simp] theorem State.fillOutbuf_busy (p : List Byte) (m : Nat) : (s.fillOutbuf p m).busy = s.busy := rfl
@[simp] theorem State.fillOutbuf_outbuf (p : List Byte) (m : Nat) : (s.fillOutbuf p m).outbuf = Memory.writeBytes s.outbuf 0 (p ++ freeBytes s.draws p.length m) := rfl
@[simp] theorem State.fillOutbuf_outbufStamp (p : List Byte) (m : Nat) : (s.fillOutbuf p m).outbufStamp = s.outbufStamp := rfl
@[simp] theorem State.fillOutbuf_pending (p : List Byte) (m : Nat) : (s.fillOutbuf p m).pending = s.pending := rfl
@[simp] theorem State.fillOutbuf_reads (p : List Byte) (m : Nat) : (s.fillOutbuf p m).reads = s.reads := rfl
@[simp] theorem State.fillOutbuf_abandoned (p : List Byte) (m : Nat) : (s.fillOutbuf p m).abandoned = s.abandoned := rfl
@[simp] theorem State.fillOutbuf_inputs (p : List Byte) (m : Nat) : (s.fillOutbuf p m).inputs = s.inputs := rfl
@[simp] theorem State.fillOutbuf_ready (p : List Byte) (m : Nat) : (s.fillOutbuf p m).ready = s.ready := rfl
@[simp] theorem State.fillOutbuf_wrote (p : List Byte) (m : Nat) : (s.fillOutbuf p m).wrote = s.wrote := rfl
@[simp] theorem State.fillOutbuf_events (p : List Byte) (m : Nat) : (s.fillOutbuf p m).events = s.events := rfl
@[simp] theorem State.fillOutbuf_replies (p : List Byte) (m : Nat) : (s.fillOutbuf p m).replies = s.replies := rfl
@[simp] theorem State.fillOutbuf_draws (p : List Byte) (m : Nat) : (s.fillOutbuf p m).draws = s.draws + 1 := rfl

@[simp] theorem State.withInputs_cfg (rest : List Input) : (s.withInputs rest).cfg = s.cfg := rfl
@[simp] theorem State.withInputs_crc (rest : List Input) : (s.withInputs rest).crc = s.crc := rfl
@[simp] theorem State.withInputs_count (rest : List Input) : (s.withInputs rest).count = s.count := rfl
@[simp] theorem State.withInputs_err (rest : List Input) : (s.withInputs rest).err = s.err := rfl
@[simp] theorem State.withInputs_rxState (rest : List Input) : (s.withInputs rest).rxState = s.rxState := rfl
@[simp] theorem State.withInputs_busy (rest : List Input) : (s.withInputs rest).busy = s.busy := rfl
@[simp] theorem State.withInputs_outbuf (rest : List Input) : (s.withInputs rest).outbuf = s.outbuf := rfl
@[simp] theorem State.withInputs_outbufStamp (rest : List Input) : (s.withInputs rest).outbufStamp = s.outbufStamp := rfl
@[simp] theorem State.withInputs_pending (rest : List Input) : (s.withInputs rest).pending = s.pending := rfl
@[simp] theorem State.withInputs_reads (rest : List Input) : (s.withInputs rest).reads = s.reads := rfl
@[simp] theorem State.withInputs_abandoned (rest : List Input) : (s.withInputs rest).abandoned = s.abandoned := rfl
@[simp] theorem State.withInputs_inputs (rest : List Input) : (s.withInputs rest).inputs = rest := rfl
@[simp] theorem State.withInputs_ready (rest : List Input) : (s.withInputs rest).ready = s.ready := rfl
@[simp] theorem State.withInputs_wrote (rest : List Input) : (s.withInputs rest).wrote = s.wrote := rfl
@[simp] theorem State.withInputs_events (rest : List Input) : (s.withInputs rest).events = s.events := rfl
@[simp] theorem State.withInputs_replies (rest : List Input) : (s.withInputs rest).replies = s.replies := rfl
@[simp] theorem State.withInputs_draws (rest : List Input) : (s.withInputs rest).draws = s.draws := rfl

@[simp] theorem State.discardAnswer_cfg (readId : Nat) : (s.discardAnswer readId).cfg = s.cfg := rfl
@[simp] theorem State.discardAnswer_crc (readId : Nat) : (s.discardAnswer readId).crc = s.crc := rfl
@[simp] theorem State.discardAnswer_count (readId : Nat) : (s.discardAnswer readId).count = s.count := rfl
@[simp] theorem State.discardAnswer_err (readId : Nat) : (s.discardAnswer readId).err = s.err := rfl
@[simp] theorem State.discardAnswer_rxState (readId : Nat) : (s.discardAnswer readId).rxState = s.rxState := rfl
@[simp] theorem State.discardAnswer_busy (readId : Nat) : (s.discardAnswer readId).busy = s.busy := rfl
@[simp] theorem State.discardAnswer_outbuf (readId : Nat) : (s.discardAnswer readId).outbuf = s.outbuf := rfl
@[simp] theorem State.discardAnswer_outbufStamp (readId : Nat) : (s.discardAnswer readId).outbufStamp = s.outbufStamp := rfl
@[simp] theorem State.discardAnswer_pending (readId : Nat) : (s.discardAnswer readId).pending = s.pending := rfl
@[simp] theorem State.discardAnswer_reads (readId : Nat) : (s.discardAnswer readId).reads = s.reads := rfl
@[simp] theorem State.discardAnswer_abandoned (readId : Nat) :
    (s.discardAnswer readId).abandoned = s.abandoned.filter (fun p => decide (p.id ≠ readId)) := rfl
@[simp] theorem State.discardAnswer_inputs (readId : Nat) : (s.discardAnswer readId).inputs = s.inputs := rfl
@[simp] theorem State.discardAnswer_ready (readId : Nat) : (s.discardAnswer readId).ready = s.ready := rfl
@[simp] theorem State.discardAnswer_wrote (readId : Nat) : (s.discardAnswer readId).wrote = s.wrote := rfl
@[simp] theorem State.discardAnswer_events (readId : Nat) : (s.discardAnswer readId).events = s.events := rfl
@[simp] theorem State.discardAnswer_replies (readId : Nat) : (s.discardAnswer readId).replies = s.replies := rfl
@[simp] theorem State.discardAnswer_draws (readId : Nat) : (s.discardAnswer readId).draws = s.draws := rfl

end Sys2Proof.Machine
end

