-- ==== Sys2Proof/Laws/Memory.lean ====
section
/-! SUPPORT. OUTBUF: read after write, canonical form, what a run of writes leaves. -/

namespace Sys2Proof.Machine

@[simp] theorem Memory.read_nil (a : Nat) : Memory.read [] a = none := rfl

theorem Memory.read_write (m : Memory) (a : Nat) (b : Byte) (k : Nat) :
    Memory.read (Memory.write m a b) k = if k = a then some b else Memory.read m k := by
  induction m with
  | nil => by_cases h : k = a <;> simp [Memory.write, Memory.read, h, eq_comm (a := a)]
  | cons cell rest ih =>
    obtain ⟨x, v⟩ := cell
    unfold Memory.write
    split
    · by_cases h : k = a
      · simp [Memory.read, h]
      · simp [Memory.read, h, Ne.symm h]
    · split
      · next h1 h2 =>
        subst h2
        by_cases h : k = a
        · simp [Memory.read, h]
        · simp [Memory.read, h, Ne.symm h]
      · next h1 h2 =>
        by_cases h : x = k
        · subst h; simp [Memory.read, Ne.symm h2]
        · simp [Memory.read, h, ih]

/-- The addresses listed after a write. -/
theorem Memory.mem_write {m : Memory} {a : Nat} {b : Byte} {cell : Host.Cell}
    (h : cell ∈ Memory.write m a b) : cell.1 = a ∨ cell ∈ m := by
  induction m with
  | nil => simp [Memory.write] at h; exact .inl (by simp [h])
  | cons c rest ih =>
    obtain ⟨x, v⟩ := c
    unfold Memory.write at h
    split at h
    · rcases List.mem_cons.mp h with h | h
      · exact .inl (by simp [h])
      · exact .inr h
    · split at h
      · rcases List.mem_cons.mp h with h | h
        · exact .inl (by simp [h])
        · exact .inr (List.mem_cons_of_mem _ h)
      · rcases List.mem_cons.mp h with h | h
        · exact .inr (by simp [h])
        · rcases ih h with h | h
          · exact .inl h
          · exact .inr (List.mem_cons_of_mem _ h)

/-- A write keeps the canonical form. -/
theorem Memory.wf_write (m : Memory) (a : Nat) (b : Byte) (hm : Memory.wf m) : Memory.wf (Memory.write m a b) := by
  induction m with
  | nil => simp [Memory.write]
  | cons c rest ih =>
    obtain ⟨x, v⟩ := c
    obtain ⟨hlt, hrest⟩ := List.pairwise_cons.mp hm
    unfold Memory.write
    split
    · next h =>
      refine List.pairwise_cons.mpr ⟨fun cell hc => ?_, hm⟩
      rcases List.mem_cons.mp hc with hc | hc
      · simpa [hc] using h
      · have := hlt cell hc
        simp only at this ⊢
        omega
    · split
      · next h1 h2 => subst h2; exact List.pairwise_cons.mpr ⟨hlt, hrest⟩
      · next h1 h2 =>
        refine List.pairwise_cons.mpr ⟨fun cell hc => ?_, ih hrest⟩
        rcases Memory.mem_write hc with hc | hc
        · simp only [hc]; omega
        · exact hlt cell hc

theorem Memory.wf_writeBytes (bs : List Byte) : ∀ (m : Memory) (a : Nat), Memory.wf m →
    Memory.wf (Memory.writeBytes m a bs) := by
  induction bs with
  | nil => exact fun m a hm => hm
  | cons b rest ih => exact fun m a hm => ih _ _ (Memory.wf_write m a b hm)

/-- Nothing is listed that was not listed before or written. -/
theorem Memory.mem_writeBytes (bs : List Byte) : ∀ (m : Memory) (a : Nat) (cell : Host.Cell),
    cell ∈ Memory.writeBytes m a bs → (a ≤ cell.1 ∧ cell.1 < a + bs.length) ∨ cell ∈ m := by
  induction bs with
  | nil => exact fun m a cell h => .inr h
  | cons b rest ih =>
    intro m a cell h
    rcases ih _ _ _ h with h | h
    · left; simp only [List.length_cons]; omega
    · rcases Memory.mem_write h with h | h
      · left; simp only [List.length_cons]; omega
      · exact .inr h

/-- A run of writes: the bytes written, and every other address as before. -/
theorem Memory.read_writeBytes (bs : List Byte) : ∀ (m : Memory) (a k : Nat),
    Memory.read (Memory.writeBytes m a bs) k =
      if a ≤ k ∧ k < a + bs.length then bs[k - a]? else Memory.read m k := by
  induction bs with
  | nil =>
    intro m a k
    rw [if_neg (by simp only [List.length_nil]; omega)]
    rfl
  | cons b rest ih =>
    intro m a k
    rw [Memory.writeBytes, ih, Memory.read_write]
    simp only [List.length_cons]
    by_cases hk : k = a
    · subst hk
      rw [if_neg (by omega), if_pos rfl, if_pos (by omega)]
      simp
    · by_cases h2 : a + 1 ≤ k ∧ k < a + 1 + rest.length
      · rw [if_pos h2, if_pos (by omega)]
        obtain ⟨j, rfl⟩ : ∃ j, k = a + 1 + j := ⟨k - (a + 1), by omega⟩
        have e1 : a + 1 + j - (a + 1) = j := by omega
        have e2 : a + 1 + j - a = j + 1 := by omega
        rw [e1, e2, List.getElem?_cons_succ]
      · rw [if_neg h2, if_neg hk, if_neg (by omega)]

@[simp] theorem freeBytes_length (d lo hi : Nat) : (freeBytes d lo hi).length = hi - lo := by simp [freeBytes]

/-- How many bytes `fillOutbuf` writes: the payload, then a byte at every address up to `maxlen`, nothing else. -/
theorem State.fill_length (p : List Byte) (d maxlen : Nat) :
    (p ++ freeBytes d p.length maxlen).length = max p.length maxlen := by
  simp only [List.length_append, freeBytes_length]; omega

/-- OUTBUF after `fillOutbuf`, inside the payload. -/
theorem State.outbufByte_fillOutbuf_payload (s : State) (p : List Byte) (maxlen j : Nat)
    (h : j < p.length) : (s.fillOutbuf p maxlen).outbufByte j = p[j] := by
  rw [State.outbufByte, State.fillOutbuf_outbuf, Memory.read_writeBytes, State.fill_length,
    if_pos (by omega), Nat.sub_zero, List.getElem?_append_left h, List.getElem?_eq_getElem h]
  rfl

/-- OUTBUF after `fillOutbuf`, at and above `maxlen` when the payload fits. -/
theorem State.outbufByte_fillOutbuf_above (s : State) (p : List Byte) (maxlen a : Nat)
    (hp : p.length ≤ maxlen) (h : maxlen ≤ a) : (s.fillOutbuf p maxlen).outbufByte a = s.outbufByte a := by
  rw [State.outbufByte, State.outbufByte, State.fillOutbuf_outbuf, Memory.read_writeBytes,
    State.fill_length, if_neg (by omega), State.fillOutbuf_outbufStamp]

theorem State.wf_fillOutbuf (s : State) (p : List Byte) (maxlen : Nat) (hs : Memory.wf s.outbuf) :
    Memory.wf (s.fillOutbuf p maxlen).outbuf := Memory.wf_writeBytes _ _ _ hs

/-- The model's reset memory is canonical. -/
theorem Memory.wf_reset : Memory.wf State.reset.outbuf := List.Pairwise.nil

end Sys2Proof.Machine
end

