-- ==== Sys2Proof/Laws/Ops.lean ====
section
/-! SUPPORT. What each shared operation can do, said once. -/

namespace Sys2Proof.Machine

/-- `withConfig` goes on exactly in an admitted configuration. -/
theorem withConfig_next {s t : State} {k : Host.Outcome State Fault Refusal} :
    withConfig s k = .next t ↔ s.cfg.WellFormed ∧ k = .next t := by
  unfold withConfig
  split
  · next h => exact ⟨fun hk => ⟨h, hk⟩, fun hk => hk.2⟩
  · next h => exact ⟨nofun, fun hk => absurd hk.1 h⟩

/-- In an admitted configuration `withConfig` is transparent. -/
theorem withConfig_of_wellFormed {s : State} (h : s.cfg.WellFormed) (k : Host.Outcome State Fault Refusal) :
    withConfig s k = k := if_pos h

/-- No chunk, or no answer listed: accepted whole. -/
@[simp] theorem acceptedWhole_noChunk (wrote : List Nat) : acceptedWhole [] wrote = true := rfl
@[simp] theorem acceptedWhole_noAnswer (chunks : List (List Byte)) : acceptedWhole chunks [] = true := by
  simp [acceptedWhole]

/-- The first chunk's answer is its length, and the others' are theirs. -/
@[simp] theorem acceptedWhole_cons (chunk : List Byte) (chunks : List (List Byte)) (n : Nat) (wrote : List Nat) :
    acceptedWhole (chunk :: chunks) (n :: wrote) = (decide (n = chunk.length) && acceptedWhole chunks wrote) := rfl

/-- Accepted whole: every answer that is listed is the length of its chunk. -/
theorem acceptedWhole_iff (chunks : List (List Byte)) : ∀ wrote : List Nat, acceptedWhole chunks wrote = true ↔
    ∀ (k n : Nat) (chunk : List Byte), chunks[k]? = some chunk → wrote[k]? = some n → n = chunk.length := by
  induction chunks with
  | nil => simp
  | cons c cs ih =>
    intro wrote
    cases wrote with
    | nil => simp
    | cons w ws =>
      rw [acceptedWhole_cons, Bool.and_eq_true, decide_eq_true_iff, ih ws]
      constructor
      · rintro ⟨h0, h⟩ k n chunk hc hn
        cases k with
        | zero => cases hc; cases hn; exact h0
        | succ k => exact h k n chunk hc hn
      · exact fun h => ⟨h 0 w c rfl rfl, fun k n chunk hc hn => h (k + 1) n chunk hc hn⟩

/-- A command that is admitted has its effect, and only then. -/
theorem takeCommand_next {ok : Bool} {writes : List (List Byte)} {effect : State → State} {s t : State} :
    takeCommand ok writes effect s = .next t ↔
      s.cfg.WellFormed ∧ s.busy = false ∧ ok = true ∧ acceptedWhole writes s.wrote = true ∧ t = effect s := by
  unfold takeCommand
  rw [withConfig_next]
  cases s.busy <;> cases ok <;> cases acceptedWhole writes s.wrote <;> simp [eq_comm]

/-- The same, as a rewrite under its hypotheses. -/
theorem takeCommand_of_takes {ok : Bool} {writes : List (List Byte)} {effect : State → State} {s : State}
    (hc : s.cfg.WellFormed) (hb : s.busy = false) (ho : ok = true) (ha : acceptedWhole writes s.wrote = true) :
    takeCommand ok writes effect s = .next (effect s) :=
  takeCommand_next.mpr ⟨hc, hb, ho, ha, rfl⟩

/-- A command while BUSY = 1. -/
theorem takeCommand_busy {ok : Bool} {writes : List (List Byte)} {effect : State → State} {s : State}
    (hc : s.cfg.WellFormed) (hb : s.busy = true) : takeCommand ok writes effect s = .refused .busyCommand := by
  unfold takeCommand
  rw [withConfig_of_wellFormed hc, if_pos hb]

/-- A command whose operands are out of bounds. -/
theorem takeCommand_illegal {writes : List (List Byte)} {effect : State → State} {s : State} (hc : s.cfg.WellFormed)
    (hb : s.busy = false) : takeCommand false writes effect s = .refused .illegalCommand := by
  unfold takeCommand
  rw [withConfig_of_wellFormed hc]
  simp [hb]

/-- A command one of whose chunks the transport does not accept whole. -/
theorem takeCommand_shortWrite {writes : List (List Byte)} {effect : State → State} {s : State} (hc : s.cfg.WellFormed)
    (hb : s.busy = false) (ha : acceptedWhole writes s.wrote = false) :
    takeCommand true writes effect s = .refused .transportContract := by
  unfold takeCommand
  rw [withConfig_of_wellFormed hc]
  simp [hb, ha]

/-- A configuration that is not admitted. -/
theorem takeCommand_illFormed {ok : Bool} {writes : List (List Byte)} {effect : State → State} {s : State}
    (hc : ¬ s.cfg.WellFormed) : takeCommand ok writes effect s = .refused .illFormedConfig := if_neg hc

/-- Waiting is no next state. -/
theorem idle_ne_next (s t : State) : idle s ≠ .next t := by
  intro h
  obtain ⟨-, h⟩ := withConfig_next.mp h
  split at h <;> cases h

/-- Whatever a step goes on from, the next input was there to take. -/
theorem step_next {s t : State} (h : step s = .next t) :
    ∃ i rest, s.inputs = i :: rest ∧ accept i (s.withInputs rest) = .next t := by
  unfold step at h
  split at h
  · exact absurd h (idle_ne_next s t)
  · next i rest hi => exact ⟨i, rest, hi, h⟩

theorem step_of_inputs {s : State} {i : Input} {rest : List Input} (h : s.inputs = i :: rest) :
    step s = accept i (s.withInputs rest) := by
  unfold step; rw [h]

/-- The awaited read, looked up by its number. -/
theorem awaitedRead_eq_some {s : State} {readId : Nat} {p : PendingRead} :
    s.awaitedRead readId = some p ↔ s.pending = some p ∧ p.id = readId := by
  simp [State.awaitedRead, Option.filter_eq_some_iff]

/-- An abandoned read that is found is one of the list and has that number. -/
theorem abandonedRead_eq_some {s : State} {readId : Nat} {p : PendingRead} (h : s.abandonedRead readId = some p) :
    p ∈ s.abandoned ∧ p.id = readId :=
  ⟨List.mem_of_find?_eq_some h, by simpa using List.find?_some h⟩

/-- An answer goes on exactly when it keeps the contract. -/
theorem withAllowed_next {s t : State} {p : PendingRead} {a : ReadAnswer} {k : Host.Outcome State Fault Refusal} :
    withAllowed s p a k = .next t ↔ answerAllowed s.cfg.pEnd (p.maxlen - 1) a = true ∧ k = .next t := by
  unfold withAllowed
  split
  · next h => exact ⟨fun hk => ⟨h, hk⟩, fun hk => hk.2⟩
  · next h => exact ⟨nofun, fun hk => absurd hk.1 h⟩

/-- What an answered read can lead to: within the contract, the awaited read is completed or an abandoned one is struck off. -/
theorem acceptAnswer_next {readId : Nat} {a : ReadAnswer} {s t : State} (h : acceptAnswer readId a s = .next t) :
    s.cfg.WellFormed ∧
      ((∃ p, s.pending = some p ∧ p.id = readId ∧ answerAllowed s.cfg.pEnd (p.maxlen - 1) a = true ∧
          t = completeRead p a s) ∨
        (∃ p ∈ s.abandoned, p.id = readId ∧ answerAllowed s.cfg.pEnd (p.maxlen - 1) a = true ∧
          t = s.discardAnswer readId)) := by
  obtain ⟨hc, h⟩ := withConfig_next.mp h
  refine ⟨hc, ?_⟩
  split at h
  · next p hp =>
    obtain ⟨ha, h⟩ := withAllowed_next.mp h
    obtain ⟨hp, hid⟩ := awaitedRead_eq_some.mp hp
    exact .inl ⟨p, hp, hid, ha, by cases h; rfl⟩
  · split at h
    · next p hp =>
      obtain ⟨ha, h⟩ := withAllowed_next.mp h
      obtain ⟨hm, hid⟩ := abandonedRead_eq_some hp
      exact .inr ⟨p, hm, hid, ha, by cases h; rfl⟩
    · cases h

/-- A completion step ends in one of two ways: `finishErr`, or `finishDelivered`, after an optional write of CRC. -/
theorem completeRead_cases (p : PendingRead) (a : ReadAnswer) (s : State) :
    (∃ c code rx, completeRead p a s = ((s.endRead.setCrc c).finishErr code rx p.maxlen) ∧
      ((code = .errorTimeout ∧ rx = .timeout) ∨ (code = .errorBuffer ∧ rx = .bufferExhausted) ∨
        (code = .errorEncoding ∧ rx = .encodingError) ∨ (code = .errorEncoding ∧ rx = .checksumMismatch))) ∨
    (∃ c bs m, a = .found bs ∧ completeRead p a s = ((s.endRead.setCrc c).finishDelivered m p.maxlen) ∧
      m.length ≤ (unescape s.cfg bs).1.length) := by
  cases a with
  | timeout => exact .inl ⟨s.crc, _, _, rfl, .inl ⟨rfl, rfl⟩⟩
  | overflow => exact .inl ⟨s.crc, _, _, rfl, .inr (.inl ⟨rfl, rfl⟩)⟩
  | found bs =>
    simp only [completeRead]
    split
    · exact .inl ⟨s.crc, _, _, rfl, .inl ⟨rfl, rfl⟩⟩
    · split
      · exact .inl ⟨s.crc, _, _, rfl, .inr (.inr (.inl ⟨rfl, rfl⟩))⟩
      · unfold checkFrame
        split
        · split
          · exact .inl ⟨s.crc, _, _, rfl, .inr (.inr (.inr ⟨rfl, rfl⟩))⟩
          · next payload field hsplit =>
            split
            · refine .inr ⟨_, bs, payload, rfl, rfl, ?_⟩
              unfold splitCrcField at hsplit
              split at hsplit
              · cases hsplit
              · simp only [Option.some.injEq, Prod.mk.injEq] at hsplit
                rw [← hsplit.1, List.length_take]
                omega
            · exact .inl ⟨_, _, _, rfl, .inr (.inr (.inr ⟨rfl, rfl⟩))⟩
        · exact .inr ⟨s.crc, bs, _, rfl, rfl, le_rfl⟩

/-- TX of an event list that grows. -/
@[simp] theorem chunksWritten_append (xs ys : List TransportEvent) :
    chunksWritten (xs ++ ys) = chunksWritten xs ++ chunksWritten ys := List.filterMap_append

@[simp] theorem chunksWritten_isReady (b : Bool) : chunksWritten [.isReady b] = [] := rfl

@[simp] theorem chunksWritten_readUntil (id : Nat) (t : Byte) (bound : Nat) :
    chunksWritten [.readUntil id t bound] = [] := rfl

@[simp] theorem chunksWritten_map_write (chunks : List (List Byte)) :
    chunksWritten (chunks.map .write) = chunks := by
  induction chunks with
  | nil => rfl
  | cons ch rest ih => simp [chunksWritten]

@[simp] theorem chunksWritten_nil : chunksWritten [] = [] := rfl

/-- The answer the transport has ready is the one it gives. -/
theorem nextReady_cons (s : State) (b : Bool) (rest : List Bool) (h : s.ready = b :: rest) : s.nextReady = b := by
  unfold State.nextReady; rw [h]

end Sys2Proof.Machine
end

