-- ==== Sys2Proof/Laws/Exec.lean ====
section
/-! SUPPORT. Every command is admitted or refused in one way: what `exec` does, said once for all commands. -/

namespace Sys2Proof.Machine

/-- The effect of a command once it is admitted. -/
def effectOf : Instr → State → State
  | .crcReset => fun s => s.setCrc 0x0000
  | .crcUpdate data => fun s => (s.setCrc (crcFold s.crc data)).reply (.result (crcFold s.crc data))
  | .crcRead => fun s => s.reply (.result s.crc)
  | .encode data => encodeEffect false data
  | .encodeE data => encodeEffect true data
  | .decode maxlen data => decodeEffect maxlen data
  | .send data => sendEffect false data
  | .sendC data => sendEffect true data
  | .receive maxlen => receiveEffect false maxlen
  | .receiveC maxlen => receiveEffect true maxlen

/-- `exec` is `takeCommand` of the command's bounds, chunks and effect. -/
theorem exec_eq_takeCommand (i : Instr) (s : State) :
    exec i s = takeCommand (i.wellFormed s.cfg) (writesOf i s) (effectOf i) s := by
  cases i <;> rfl

/-- A command goes on exactly when it is admitted, and then it has its effect. -/
theorem exec_next {i : Instr} {s t : State} :
    exec i s = .next t ↔ s.cfg.WellFormed ∧ s.busy = false ∧ i.wellFormed s.cfg = true ∧
      acceptedWhole (writesOf i s) s.wrote = true ∧ t = effectOf i s := by
  rw [exec_eq_takeCommand, takeCommand_next]

/-- The same, as an equation under its hypotheses. -/
theorem exec_of_admitted {i : Instr} {s : State} (hc : s.cfg.WellFormed) (hb : s.busy = false)
    (hw : i.wellFormed s.cfg = true) (ha : acceptedWhole (writesOf i s) s.wrote = true) :
    exec i s = .next (effectOf i s) :=
  exec_next.mpr ⟨hc, hb, hw, ha, rfl⟩

/-- The bounds of 30_encoding.md R66, command by command. -/
@[simp] theorem wellFormed_crcReset (c : Config) : Instr.wellFormed c .crcReset = true := rfl
@[simp] theorem wellFormed_crcRead (c : Config) : Instr.wellFormed c .crcRead = true := rfl
@[simp] theorem wellFormed_crcUpdate (c : Config) (d : List Byte) :
    Instr.wellFormed c (.crcUpdate d) = true ↔ d.length ≤ c.maxCount := by simp [Instr.wellFormed]
@[simp] theorem wellFormed_encode (c : Config) (d : List Byte) :
    Instr.wellFormed c (.encode d) = true ↔ d.length ≤ c.maxCount := by simp [Instr.wellFormed]
@[simp] theorem wellFormed_encodeE (c : Config) (d : List Byte) :
    Instr.wellFormed c (.encodeE d) = true ↔ d.length ≤ c.maxCount := by simp [Instr.wellFormed]
@[simp] theorem wellFormed_decode (c : Config) (m : Nat) (d : List Byte) :
    Instr.wellFormed c (.decode m d) = true ↔ m ≤ c.bufBytes ∧ d.length ≤ c.maxCount := by simp [Instr.wellFormed]
@[simp] theorem wellFormed_send (c : Config) (d : List Byte) :
    Instr.wellFormed c (.send d) = true ↔ d.length ≤ c.maxCount := by simp [Instr.wellFormed]
@[simp] theorem wellFormed_sendC (c : Config) (d : List Byte) :
    Instr.wellFormed c (.sendC d) = true ↔ d.length + 2 ≤ c.maxCount := by simp [Instr.wellFormed]
@[simp] theorem wellFormed_receive (c : Config) (m : Nat) :
    Instr.wellFormed c (.receive m) = true ↔ m ≤ c.bufBytes := by simp [Instr.wellFormed]
@[simp] theorem wellFormed_receiveC (c : Config) (m : Nat) :
    Instr.wellFormed c (.receiveC m) = true ↔ m ≤ c.bufBytes := by simp [Instr.wellFormed]

/-- ENCODE on empty data. -/
theorem encodeEffect_nil (e : Bool) (s : State) : encodeEffect e [] s = s.setCount 0 := by
  simp [encodeEffect, encodeWrites, State.writeChunks, State.setCount]

/-- ENCODE on non-empty data. -/
theorem encodeEffect_of_ne_nil (e : Bool) {raw : List Byte} (h : raw ≠ []) (s : State) :
    encodeEffect e raw s =
      (s.writeChunks (encodeChunks s.cfg raw ++ if e then [[s.cfg.pEnd]] else [])).setCount raw.length := by
  rw [encodeEffect, encodeWrites, if_neg h]

/-- DECODE on success. -/
theorem decodeEffect_success {maxlen : Nat} {wire : List Byte} {s : State}
    (h : decodeOutcome (unescape s.cfg wire).2 (unescape s.cfg wire).1.length wire.length maxlen = .noError) :
    decodeEffect maxlen wire s =
      ((s.setErr .noError).fillOutbuf (unescape s.cfg wire).1 maxlen).setCount (unescape s.cfg wire).1.length := by
  simp only [decodeEffect, h, if_true]

/-- DECODE on an error. -/
theorem decodeEffect_error {maxlen : Nat} {wire : List Byte} {s : State} {e : ErrCode} (he : e ≠ .noError)
    (h : decodeOutcome (unescape s.cfg wire).2 (unescape s.cfg wire).1.length wire.length maxlen = e) :
    decodeEffect maxlen wire s = ((s.setErr e).fillOutbuf [] maxlen).setCount 0 := by
  simp only [decodeEffect, h, he, if_false]

/-- A successful DECODE fits its MAXLEN and had no misread. -/
theorem decodeOutcome_noError {misread : Bool} {outLen wireLen maxlen : Nat}
    (h : decodeOutcome misread outLen wireLen maxlen = .noError) : misread = false ∧ outLen ≤ maxlen := by
  unfold decodeOutcome at h
  split at h
  · cases h
  · split at h
    · cases h
    · exact ⟨by simpa using ‹¬misread = true›, by omega⟩

/-- SEND when the transport is ready. -/
theorem sendEffect_ready (u : Bool) (payload : List Byte) {s : State} (h : s.nextReady = true) :
    sendEffect u payload s =
      (((s.askReady.setCrc (if u then crcFold 0x0000 payload else 0x0000)).writeChunks
        (frameChunks s.cfg u payload)).setCount (messageLength u payload)).setErr .noError := if_pos h

/-- SEND when it is not. -/
theorem sendEffect_notReady (u : Bool) (payload : List Byte) {s : State} (h : s.nextReady = false) :
    sendEffect u payload s = (s.askReady.setCount 0).setErr .errorStream := if_neg (by simp [h])

/-- RECEIVE when the transport is not ready. -/
theorem receiveEffect_notReady (u : Bool) (maxlen : Nat) {s : State} (h : s.nextReady = false) :
    receiveEffect u maxlen s = ((s.askReady.setErr .errorStream).setCount 0).setRxState .awaitingData :=
  if_neg (by simp [h])

/-- RECEIVE with MAXLEN = 0. -/
theorem receiveEffect_zero (u : Bool) {s : State} (h : s.nextReady = true) :
    receiveEffect u 0 s = ((s.askReady.setErr .errorBuffer).setCount 0).setRxState .bufferExhausted := by
  rw [receiveEffect, if_pos h, if_pos rfl]

/-- RECEIVE that issues its read. -/
theorem receiveEffect_reads (u : Bool) {maxlen : Nat} {s : State} (h : s.nextReady = true) (hm : maxlen ≠ 0) :
    receiveEffect u maxlen s = (s.askReady.setCrc 0x0000).readUntilEnd maxlen u := by
  rw [receiveEffect, if_pos h, if_neg hm]

/-- The answer the transport gives to the outstanding read, if it is admitted, completes it. -/
theorem acceptAnswer_pending {s : State} {p : PendingRead} {a : ReadAnswer} (hc : s.cfg.WellFormed)
    (hp : s.pending = some p) (ha : answerAllowed s.cfg.pEnd (p.maxlen - 1) a = true) :
    acceptAnswer p.id a s = .next (completeRead p a s) := by
  rw [acceptAnswer, withConfig_of_wellFormed hc, awaitedRead_eq_some.mpr ⟨hp, rfl⟩]
  exact if_pos ha

/-- The answer to an abandoned read, if it is admitted, is discarded, whatever else the core waits for. -/
theorem acceptAnswer_abandoned {s : State} {p : PendingRead} {a : ReadAnswer} (hc : s.cfg.WellFormed)
    (hw : s.awaitedRead p.id = none) (hp : s.abandonedRead p.id = some p)
    (ha : answerAllowed s.cfg.pEnd (p.maxlen - 1) a = true) :
    acceptAnswer p.id a s = .next (s.discardAnswer p.id) := by
  rw [acceptAnswer, withConfig_of_wellFormed hc, hw, hp]
  exact if_pos ha

/-- Where the numbers of a list of reads stand once, each read is found by its number. -/
theorem find_read_of_mem {l : List PendingRead} {p : PendingRead} (hm : p ∈ l)
    (hn : (l.map PendingRead.id).Nodup) : l.find? (fun q => decide (q.id = p.id)) = some p := by
  induction l with
  | nil => cases hm
  | cons q l ih =>
    simp only [List.map_cons, List.nodup_cons] at hn
    rcases List.mem_cons.mp hm with rfl | hm
    · simp
    · have hq : q.id ≠ p.id := fun h => hn.1 (h ▸ List.mem_map.mpr ⟨p, hm, rfl⟩)
      simp [hq, ih hm hn.2]

/-- Under the invariant an abandoned read is found by its number. -/
theorem State.Inv.abandonedRead {s : State} (h : s.Inv) {p : PendingRead} (hm : p ∈ s.abandoned) :
    s.abandonedRead p.id = some p := find_read_of_mem hm h.abandoned_once

/-- Under the invariant the core waits on no abandoned read. -/
theorem State.Inv.awaitedRead {s : State} (h : s.Inv) {p : PendingRead} (hm : p ∈ s.abandoned) :
    s.awaitedRead p.id = none := by
  by_contra hx
  obtain ⟨q, hq⟩ := Option.ne_none_iff_exists'.mp hx
  obtain ⟨hp, hid⟩ := awaitedRead_eq_some.mp hq
  exact (h.pending_read q hp).2.2.2.2 (List.mem_map.mpr ⟨p, hm, hid.symm⟩)

/-- Which answers with bytes are admitted. -/
theorem answerAllowed_found {t : Byte} {bound : Nat} {bs : List Byte} :
    answerAllowed t bound (.found bs) = true ↔ bs.length ≤ bound ∧ t ∉ bs := by
  simp [answerAllowed]

end Sys2Proof.Machine
end

