-- ==== Sys2Proof/Laws/PerInstr.lean ====
section
/-! SUPPORT. Statements made once per command: the CMD byte of every command selects that command. -/

namespace Sys2Proof.Laws.CmdByteSelects

/-- The CMD byte the encoder gives a command has Z = 00, and decodes to the operation of that command
(30_encoding.md R61, R65, R69). -/
def Statement (i : Instr) : Prop := cmdZ (encode i).cmd = 0#2 ∧ decodeCmd (encode i).cmd = .ok i.op

/-- The same of an operation. -/
theorem of_op (op : Op) : cmdZ (encodeCmd op) = 0#2 ∧ decodeCmd (encodeCmd op) = .ok op := by
  rcases op with _ | _ | _ | (_ | _) | _ | (_ | _) | (_ | _) <;> exact ⟨by decide, by rfl⟩

theorem crcReset : Statement .crcReset := of_op _
theorem crcUpdate (data : List Byte) : Statement (.crcUpdate data) := of_op _
theorem crcRead : Statement .crcRead := of_op _
theorem encode (data : List Byte) : Statement (.encode data) := of_op _
theorem encodeE (data : List Byte) : Statement (.encodeE data) := of_op _
theorem decode (maxlen : Nat) (data : List Byte) : Statement (.decode maxlen data) := of_op _
theorem send (data : List Byte) : Statement (.send data) := of_op _
theorem sendC (data : List Byte) : Statement (.sendC data) := of_op _
theorem receive (maxlen : Nat) : Statement (.receive maxlen) := of_op _
theorem receiveC (maxlen : Nat) : Statement (.receiveC maxlen) := of_op _

end Sys2Proof.Laws.CmdByteSelects
end

