-- ==== Sys2Proof/Tests/Slice0.lean ====
section
/-! SUPPORT. The model's own tests: ill-formed terms the checks refuse, CMD bytes written out from 30_encoding.md R61 and
R62, one-step vectors of 95_test_vectors.md, and witnesses for the hypotheses of the obligations. Expected values are the
spec's. -/

namespace Sys2Proof.Tests

open Sys2Proof Sys2Proof.Machine

/-- The reference configuration of 00_scope.md R12. -/
abbrev ref : Config := Config.reference

/-- The state after a step that goes on. -/
def after : Host.Outcome State Fault Refusal → Option State
  | .next s => some s
  | .fault _ => none
  | .refused _ => none

/-- The refusal of a step that is refused. -/
def refusal : Host.Outcome State Fault Refusal → Option Refusal
  | .next _ => none
  | .fault _ => none
  | .refused r => some r

/-- The reset state with another CRC and a transport that answers the next `IsReady()` so. -/
def start (crc : Word16) (ready : Bool) : State := { State.reset with crc := crc, ready := [ready] }

/-- A state in which a RECEIVE waits: the empty-frame policy, read number 0, `maxlen`, C; then `inputs` come. -/
def waiting (policy : EmptyFrame) (useCrc : Bool) (maxlen : Nat) (inputs : List Input) : State :=
  { State.reset with
    cfg := { ref with emptyFrame := policy }
    rxState := .readingUntilTerminator
    busy := true
    pending := some ⟨0, maxlen, useCrc⟩
    reads := 1
    events := [.isReady true, .readUntil 0 0xC0 (maxlen - 1)]
    inputs := inputs }

/-- An idle state in which read number 0 was abandoned; then `inputs` come. -/
def abandonedOne (inputs : List Input) : State := { State.reset with reads := 1, abandoned := [⟨0, 16, true⟩], inputs := inputs }

/-- What a test looks at: CRC, COUNT, STATUS. -/
def look (o : Host.Outcome State Fault Refusal) : Option (Word16 × Nat × BitVec 8) :=
  (after o).map fun s => (s.crc, s.count, statusByte s.err s.rxState s.busy)

/-- The chunks written after a step. -/
def chunks (o : Host.Outcome State Fault Refusal) : Option (List (List Byte)) := (after o).map State.tx

/-- The first `n` bytes of OUTBUF that are stored. -/
def stored (n : Nat) (o : Host.Outcome State Fault Refusal) : Option (List (Option Byte)) :=
  (after o).map fun s => (List.range n).map (Memory.read s.outbuf)

/-! ## WellFormed: one ill-formed term for each check -/

theorem test_config_reference_admitted : ref.WellFormed := by decide
theorem test_config_end_esc : ¬ Config.WellFormed { ref with pEnd := 0xDB } := by decide
theorem test_config_subEnd_end : ¬ Config.WellFormed { ref with pSubEnd := 0xC0 } := by decide
theorem test_config_subEnd_esc : ¬ Config.WellFormed { ref with pSubEnd := 0xDB } := by decide
theorem test_config_subEsc_end : ¬ Config.WellFormed { ref with pSubEsc := 0xC0 } := by decide
theorem test_config_subEsc_esc : ¬ Config.WellFormed { ref with pSubEsc := 0xDB } := by decide
theorem test_config_subEnd_subEsc : ¬ Config.WellFormed { ref with pSubEnd := 0xDD } := by decide
theorem test_config_lenBits_low : ¬ Config.WellFormed { ref with lenBits := 1, bufBytes := 1 } := by decide
theorem test_config_bufBytes_zero : ¬ Config.WellFormed { ref with bufBytes := 0 } := by decide
theorem test_config_bufBytes_high : ¬ Config.WellFormed { ref with lenBits := 8 } := by decide

/-- A configuration with 2-bit counts: no DATA of four bytes, no MAXLEN above 2. -/
def tiny : Config := { ref with lenBits := 2, bufBytes := 2 }

theorem test_config_tiny_admitted : tiny.WellFormed := by decide
theorem test_wf_crcUpdate : Instr.wellFormed tiny (.crcUpdate [1, 2, 3, 4]) = false := by decide
theorem test_wf_encode : Instr.wellFormed tiny (.encode [1, 2, 3, 4]) = false := by decide
theorem test_wf_encodeE : Instr.wellFormed tiny (.encodeE [1, 2, 3, 4]) = false := by decide
theorem test_wf_decode_data : Instr.wellFormed tiny (.decode 2 [1, 2, 3, 4]) = false := by decide
theorem test_wf_decode_maxlen : Instr.wellFormed tiny (.decode 3 [1]) = false := by decide
theorem test_wf_send : Instr.wellFormed tiny (.send [1, 2, 3, 4]) = false := by decide
theorem test_wf_sendC : Instr.wellFormed tiny (.sendC [1, 2]) = false := by decide
theorem test_wf_receive : Instr.wellFormed tiny (.receive 3) = false := by decide
theorem test_wf_receiveC : Instr.wellFormed tiny (.receiveC 3) = false := by decide
theorem test_wf_bounds_met :
    (Instr.wellFormed tiny (.send [1, 2, 3]) && Instr.wellFormed tiny (.sendC [1]) &&
      Instr.wellFormed tiny (.decode 2 [1, 2, 3]) && Instr.wellFormed tiny (.receive 0)) = true := by decide

/-! ## Decode: CMD bytes written out bit by bit from 30_encoding.md R61, R62: Z, E, C, OP -/

theorem test_decode_crcReset : decode ⟨0b00_0_0_0001, none, none⟩ = .ok .crcReset := by rfl
theorem test_decode_crcUpdate : decode ⟨0b00_0_0_0010, none, some [0x41]⟩ = .ok (.crcUpdate [0x41]) := by rfl
theorem test_decode_crcRead : decode ⟨0b00_0_0_0011, none, none⟩ = .ok .crcRead := by rfl
theorem test_decode_encode : decode ⟨0b00_0_0_0100, none, some [0x41]⟩ = .ok (.encode [0x41]) := by rfl
theorem test_decode_encodeE : decode ⟨0b00_1_0_0100, none, some [0x41]⟩ = .ok (.encodeE [0x41]) := by rfl
theorem test_decode_decode : decode ⟨0b00_0_0_0101, some 16, some [0x41]⟩ = .ok (.decode 16 [0x41]) := by rfl
theorem test_decode_send : decode ⟨0b00_0_0_0110, none, some [0x48, 0x69]⟩ = .ok (.send [0x48, 0x69]) := by rfl
theorem test_decode_sendC : decode ⟨0b00_0_1_0110, none, some [0x48, 0x69]⟩ = .ok (.sendC [0x48, 0x69]) := by rfl
theorem test_decode_receive : decode ⟨0b00_0_0_0111, some 16, none⟩ = .ok (.receive 16) := by rfl
theorem test_decode_receiveC : decode ⟨0b00_0_1_0111, some 16, none⟩ = .ok (.receiveC 16) := by rfl

/-- The CMD values 95_test_vectors.md section 2.7 lists as refused. -/
theorem test_decodeCmd_refused :
    [0x00#8, 0x08#8, 0x0F#8, 0x11#8, 0x14#8, 0x15#8, 0x21#8, 0x26#8, 0x41#8, 0x81#8].map
      (fun cmd => (decodeCmd cmd).toOption) = List.replicate 10 none := by decide

theorem test_decode_maxlen_missing : decode ⟨0x05, none, some [0x41]⟩ = .error .maxlenMissing := by rfl
theorem test_decode_data_extra : decode ⟨0x01, none, some [0x41]⟩ = .error .dataNotTaken := by rfl
theorem test_decode_data_missing : decode ⟨0x06, none, none⟩ = .error .dataMissing := by rfl
theorem test_decode_maxlen_extra : decode ⟨0x06, some 1, some [0x41]⟩ = .error .maxlenNotTaken := by rfl
theorem test_tableWord_above_byte : decodeTableWord 8 0x101 = none := by rfl
theorem test_text_decode : Instr.text (.decode 16 [0x41, 0xDB]) =
    "DECODE 16, " ++ String.ofList [Char.ofNat 0x7B, '4', '1', ' ', 'D', 'B', Char.ofNat 0x7D] := by decide
theorem test_text_crcReset : Instr.text .crcReset = "CRC_RESET" := by decide

/-! ## One-step vectors (95_test_vectors.md section 2) -/

/-- V-CRC-24. -/
theorem test_crcReset : look (exec .crcReset (start 0x2189 true)) = some (0x0000, 0, 0x00) := by decide
/-- V-CRC-13. -/
theorem test_crcUpdate_check : look (exec (.crcUpdate [0x31, 0x32, 0x33, 0x34, 0x35, 0x36, 0x37, 0x38, 0x39])
    State.reset) = some (0x2189, 0, 0x00) := by decide +kernel
/-- V-CRC-21. -/
theorem test_crcUpdate_folds : (after (exec (.crcUpdate [0x48, 0x69]) (start 0x1234 true))).map State.replies =
    some [.result 0x9430] := by decide +kernel
/-- V-CRC-25. -/
theorem test_crcRead : (after (exec .crcRead (start 0x2189 true))).map (fun s => (s.crc, s.replies)) =
    some (0x2189, [.result 0x2189]) := by decide
/-- V-CRC-27: no constant residue. -/
theorem test_crcFold_no_residue : crcFold 0x0000 [0x48, 0x69, 0x76, 0x61] = 0xBCA7 := by decide +kernel
/-- V-CRC-16, by the parameter set read literally. -/
theorem test_crcMsbFirst : crcMsbFirst [0x42, 0x42] = 0x14C0 := by decide +kernel

/-- V-ENC-15. -/
theorem test_encode_adjacent : chunks (exec (.encode [0x41, 0xDB, 0xDB, 0x42]) State.reset) =
    some [[0x41], [0xDB, 0xDD], [0xDB, 0xDD], [0x42]] := by decide
/-- V-ENC-12. -/
theorem test_encode_substitutes : chunks (exec (.encode [0xDC, 0xDD]) State.reset) = some [[0xDC, 0xDD]] := by decide
/-- L1-1: the appended END is not counted. -/
theorem test_encodeE : chunks (exec (.encodeE [0x41, 0xC0, 0x42]) State.reset) =
    some [[0x41], [0xDB, 0xDC], [0x42], [0xC0]] ∧
    look (exec (.encodeE [0x41, 0xC0, 0x42]) State.reset) = some (0x0000, 3, 0x00) := by decide
/-- V-ENC-2: nothing at all on empty data. -/
theorem test_encodeE_empty : chunks (exec (.encodeE []) State.reset) = some [] := by decide

/-- V-DEC-5: the output exactly fills MAXLEN. -/
theorem test_decode_fills : look (exec (.decode 3 [0x41, 0xDB, 0xDC, 0x42]) State.reset) = some (0x0000, 3, 0x00) ∧
    stored 4 (exec (.decode 3 [0x41, 0xDB, 0xDC, 0x42]) State.reset) =
      some [some 0x41, some 0xC0, some 0x42, none] := by decide
/-- V-DEC-6, V-DEC-13, V-DEC-16, V-DEC-17. -/
theorem test_decode_outcomes :
    look (exec (.decode 2 [0x41, 0xDB, 0xDC, 0x42]) State.reset) = some (0x0000, 0, 0x02) ∧
    look (exec (.decode 4 [0xDB, 0xDC, 0xDB]) State.reset) = some (0x0000, 0, 0x04) ∧
    look (exec (.decode 4 [0x41, 0xC0, 0x42]) State.reset) = some (0x0000, 3, 0x00) ∧
    look (exec (.decode 1 [0xDB, 0x41, 0x42, 0x43]) State.reset) = some (0x0000, 0, 0x04) := by decide

/-- V-SND-11, V-SND-3. -/
theorem test_send : chunks (exec (.send [0x48, 0x69]) (start 0x1234 true)) = some [[0x48, 0x69], [0xC0]] ∧
    look (exec (.send [0x48, 0x69]) (start 0x1234 true)) = some (0x0000, 2, 0x00) ∧
    chunks (exec (.send []) (start 0x1234 true)) = some [[0xC0]] := by decide
/-- V-SND-5: a CRC byte equal to END is escaped. -/
theorem test_sendC_escapes_crc : chunks (exec (.sendC [0x42, 0x42]) (start 0x1234 true)) =
    some [[0x42, 0x42], [0x14], [0xDB, 0xDC], [0xC0]] ∧
    look (exec (.sendC [0x42, 0x42]) (start 0x1234 true)) = some (0x14C0, 4, 0x00) := by decide +kernel
/-- V-SND-10. -/
theorem test_sendC_notReady : chunks (exec (.sendC [0x48, 0x69]) (start 0x1234 false)) = some [] ∧
    look (exec (.sendC [0x48, 0x69]) (start 0x1234 false)) = some (0x1234, 0, 0x03) := by decide

/-- V-RCV-9, V-RCV-10: the early exits leave CRC alone. -/
theorem test_receive_early : look (exec (.receiveC 0) (start 0x1234 true)) = some (0x1234, 0, 0x22) ∧
    look (exec (.receive 0) (start 0x1234 false)) = some (0x1234, 0, 0x03) := by decide
/-- V-RCV-1, the issue step: the read is bounded by MAXLEN - 1, STATUS is 0x48. -/
theorem test_receiveC_issue : look (exec (.receiveC 16) (start 0x1234 true)) = some (0x0000, 0, 0x48) ∧
    (after (exec (.receiveC 16) (start 0x1234 true))).map State.events =
      some [.isReady true, .readUntil 0 0xC0 15] := by decide

/-- The answer to read 0. -/
def answered (useCrc : Bool) (maxlen : Nat) (a : ReadAnswer) : Host.Outcome State Fault Refusal :=
  step (waiting .asTimeout useCrc maxlen [.answer 0 a])

/-- V-RCV-15: Delivered, with an escaped CRC byte. -/
theorem test_receiveC_delivered : look (answered true 16 (.found [0x42, 0x42, 0x14, 0xDB, 0xDC])) =
    some (0x14C0, 2, 0x38) ∧
    stored 2 (answered true 16 (.found [0x42, 0x42, 0x14, 0xDB, 0xDC])) = some [some 0x42, some 0x42] := by decide +kernel
/-- V-RCV-22, V-RCV-13, V-RCV-14, V-COR-1, V-COR-6. -/
theorem test_receiveC_outcomes :
    look (answered true 4 (.found [0x48, 0x69, 0x76])) = some (0xCE4C, 0, 0x34) ∧
    look (answered true 16 (.found [0x48])) = some (0x0000, 0, 0x34) ∧
    look (answered true 16 (.found [0x00, 0x00])) = some (0x0000, 0, 0x38) ∧
    look (answered true 16 (.found [0x49, 0x69, 0x76, 0x61])) = some (0x6FB9, 0, 0x34) ∧
    look (answered true 16 (.found [0x42, 0x42, 0x14, 0xDB, 0x41])) = some (0x0000, 0, 0x2C) := by decide +kernel
/-- V-RCV-3, V-RCV-4, V-RCV-5. -/
theorem test_receive_failures : look (answered true 16 .timeout) = some (0x0000, 0, 0x19) ∧
    look (answered false 16 .overflow) = some (0x0000, 0, 0x22) ∧
    look (answered false 16 (.found [])) = some (0x0000, 0, 0x19) := by decide
/-- V-RCV-6, V-RCV-7. -/
theorem test_receive_empty_message :
    look (step (waiting .asEmptyMessage false 16 [.answer 0 (.found [])])) = some (0x0000, 0, 0x38) ∧
    look (step (waiting .asEmptyMessage true 16 [.answer 0 (.found [])])) = some (0x0000, 0, 0x34) := by decide
/-- V-RCV-23: C differs between the two ends, the CRC field is delivered as payload. -/
theorem test_receive_delivers_field : look (answered false 16 (.found [0x48, 0x69, 0x76, 0x61])) =
    some (0x0000, 4, 0x38) := by decide
/-- 95_test_vectors.md P6: the terminator in an answer is refused. -/
theorem test_answer_contract : refusal (answered false 16 (.found [0x41, 0xC0, 0x42])) = some .transportContract := by
  decide
/-- 95_test_vectors.md P6: CRC_READ while a RECEIVE waits. -/
theorem test_busy_command : refusal (step (waiting .asTimeout true 16 [.command ⟨0x03, none, none⟩])) = some .busyCommand := by
  decide
/-- 95_test_vectors.md section 2.7: MAXLEN 257 is out of bounds. -/
theorem test_maxlen_257 : refusal (step { State.reset with inputs := [.command ⟨0x17, some 257, none⟩] }) =
    some .illegalCommand := by decide
/-- 10_state.md R36: STATUS while a RECEIVE waits, and a register that does not exist. -/
theorem test_registers : (after (step (waiting .asTimeout true 16 [.readRegister 0]))).map State.replies = some [.status 0x48] ∧
    refusal (step { State.reset with inputs := [.readRegister 3] }) = some (.badRegisterNumber 3) := by decide
/-- With nothing handed over the reset machine waits for its first command (70_reset_and_hazards.md R190). -/
theorem test_reset_waits : step State.reset = .fault .awaitingCommand := by rfl

/-! ## Witnesses: for every obligation with hypotheses, a state and operands that meet them -/

/-- The reference configuration with either empty-frame policy. -/
theorem test_config_policies (policy : EmptyFrame) : Config.WellFormed { ref with emptyFrame := policy } := by
  cases policy <;> decide

/-- The state of `waiting` meets the invariant. -/
theorem waiting_inv (policy : EmptyFrame) (useCrc : Bool) (maxlen : Nat) (inputs : List Input) (h1 : 1 ≤ maxlen)
    (h2 : maxlen ≤ 256) : (waiting policy useCrc maxlen inputs).Inv where
  config := test_config_policies policy
  count_fits := Nat.zero_le _
  outbuf_canonical := List.Pairwise.nil
  outbuf_in_range := fun _ h => nomatch h
  busy_iff_pending := ⟨fun _ h => (nomatch h), fun _ => rfl⟩
  busy_iff_reading := ⟨fun _ => rfl, fun _ => rfl⟩
  not_decoding := fun h => nomatch h
  pending_read := by
    intro p h
    cases h
    exact ⟨h1, h2, rfl, Nat.zero_lt_one, fun h => nomatch h⟩
  abandoned_issued := fun _ h => nomatch h
  abandoned_once := List.nodup_nil
  chunks_nonempty := fun _ h => nomatch h
  stamp_drawn := Nat.zero_lt_one

/-- The transport answers the read of `waiting`. -/
theorem waiting_answered (policy : EmptyFrame) (useCrc : Bool) (maxlen : Nat) (a : ReadAnswer) (h1 : 1 ≤ maxlen)
    (h2 : maxlen ≤ 256) :
    AnsweredBy (waiting policy useCrc maxlen [.answer 0 a]) ⟨0, maxlen, useCrc⟩ a :=
  ⟨⟨waiting_inv _ _ _ _ h1 h2, rfl⟩, [], rfl⟩

/-- The reset state with `inputs` to come. -/
def handed (inputs : List Input) : State := { State.reset with inputs := inputs }

/-- The reset state with `inputs` to come meets the invariant. -/
theorem handed_inv (inputs : List Input) : (handed inputs).Inv where
  config := test_config_reference_admitted
  count_fits := Nat.zero_le _
  outbuf_canonical := List.Pairwise.nil
  outbuf_in_range := fun _ h => nomatch h
  busy_iff_pending := ⟨fun h => (nomatch (h : false = true)), fun h => absurd rfl h⟩
  busy_iff_reading := ⟨fun h => (nomatch (h : false = true)), fun h => nomatch (h : RxState.awaitingData = _)⟩
  not_decoding := fun h => nomatch h
  pending_read := fun _ h => nomatch h
  abandoned_issued := fun _ h => nomatch h
  abandoned_once := List.nodup_nil
  chunks_nonempty := fun _ h => nomatch h
  stamp_drawn := Nat.zero_lt_one

/-- The idle state with an abandoned read meets the invariant. -/
theorem abandonedOne_inv (inputs : List Input) : (abandonedOne inputs).Inv :=
  { handed_inv inputs with
    pending_read := fun _ h => nomatch h
    abandoned_issued := by
      intro r h
      cases List.mem_singleton.mp h
      exact Nat.zero_lt_one
    abandoned_once := List.nodup_singleton 0 }

/-- A RECEIVE waits on read 0 while read 1 is abandoned. -/
def waitingAndAbandoned (inputs : List Input) : State :=
  { waiting .asTimeout true 16 inputs with reads := 2, abandoned := [⟨1, 4, false⟩] }

/-- That state meets the invariant. -/
theorem waitingAndAbandoned_inv (inputs : List Input) : (waitingAndAbandoned inputs).Inv :=
  { waiting_inv .asTimeout true 16 inputs (by decide) (by decide) with
    pending_read := by
      intro p h
      cases h
      exact ⟨by decide, show 16 ≤ 256 by decide, rfl, Nat.zero_lt_two, show (0 : Nat) ∉ [1] by decide⟩
    abandoned_issued := by
      intro r h
      cases List.mem_singleton.mp h
      exact Nat.one_lt_two
    abandoned_once := List.nodup_singleton 1 }

/-- A command is taken by an idle state in the reference configuration that has no answer to a `Write` listed. -/
theorem takes {i : Instr} {s : State} (hc : s.cfg = ref) (hb : s.busy = false) (hw : i.wellFormed ref = true)
    (ha : s.wrote = []) : Takes i s := by
  refine ⟨hc ▸ test_config_reference_admitted, hb, hc ▸ hw, ?_⟩
  rw [WritesAccepted, ha]
  exact acceptedWhole_noAnswer _

/-- Every command of the table, on its shortest operands, is taken by the reset state. -/
theorem witness_Takes :
    ∀ i ∈ [Instr.crcReset, .crcUpdate [], .crcRead, .encode [], .encodeE [], .decode 0 [], .send [], .sendC [],
      .receive 0, .receiveC 0], Takes i State.reset := by
  intro i hi
  simp only [List.mem_cons, List.not_mem_nil, or_false] at hi
  rcases hi with rfl | rfl | rfl | rfl | rfl | rfl | rfl | rfl | rfl | rfl <;> exact takes rfl rfl (by decide) rfl

theorem witness_DecodeFollowsOpTable : FitsRow ⟨0x24, none, some [0x41]⟩ (.encodeE [0x41]) ∧
    FitsRow ⟨0x17, some 16, none⟩ (.receiveC 16) := ⟨⟨⟨by decide, rfl, rfl, by decide⟩, rfl, rfl⟩,
  ⟨⟨by decide, rfl, rfl, by decide⟩, rfl, rfl⟩⟩

theorem witness_StepRunsDecodedCommand :
    (handed [.command ⟨0x24, none, some [0x41]⟩, .reset]).inputs = .command ⟨0x24, none, some [0x41]⟩ :: [.reset] ∧
    decode ⟨0x24, none, some [0x41]⟩ = .ok (.encodeE [0x41]) := ⟨rfl, rfl⟩

theorem witness_FetchWordRunsNext : decodeTableWord 8 0x16 = some (.sendC []) ∧
    decodeTableWord 8 0x05 = some (.decode 0 []) := ⟨rfl, rfl⟩

/-- The hypotheses on the state. -/
theorem witness_IllegalCommandsAreRefused (r : Command) : (handed [.command r]).cfg.WellFormed ∧
    (handed [.command r]).busy = false ∧ (handed [.command r]).inputs = .command r :: [] ∧
    ∀ i, decode r = .ok i → WritesAccepted i (handed [.command r]) :=
  ⟨test_config_reference_admitted, rfl, rfl, fun _ _ => acceptedWhole_noAnswer _⟩

/-- One record for each condition of 30_encoding.md R67, each beside a bound. -/
theorem witness_IllegalRecord :
    IllegalRecord ref ⟨0x00, none, none⟩ ∧ IllegalRecord ref ⟨0x08, none, none⟩ ∧
    IllegalRecord ref ⟨0x41, none, none⟩ ∧ IllegalRecord ref ⟨0x15, some 16, some [0x41]⟩ ∧
    IllegalRecord ref ⟨0x26, none, some [0x41]⟩ ∧ IllegalRecord ref ⟨0x06, some 0, some [0x41]⟩ ∧
    IllegalRecord ref ⟨0x05, none, some [0x41]⟩ ∧ IllegalRecord ref ⟨0x07, some 0, some []⟩ ∧
    IllegalRecord ref ⟨0x02, none, none⟩ ∧ IllegalRecord ref ⟨0x17, some 257, none⟩ ∧
    IllegalRecord tiny ⟨0x04, none, some [1, 2, 3, 4]⟩ ∧ IllegalRecord tiny ⟨0x16, none, some [1, 2]⟩ := by
  simp [IllegalRecord, Config.reference, tiny]

/-- Records on the admitted side of the same bounds. -/
theorem witness_not_IllegalRecord :
    ¬ IllegalRecord ref ⟨0x17, some 256, none⟩ ∧ ¬ IllegalRecord tiny ⟨0x04, none, some [1, 2, 3]⟩ ∧
    ¬ IllegalRecord tiny ⟨0x16, none, some [1]⟩ ∧ ¬ IllegalRecord ref ⟨0x01, none, none⟩ := by
  simp [IllegalRecord, Config.reference, tiny]

theorem witness_BusyCoreRefusesCommands (r : Command) :
    (waiting .asTimeout true 16 [.command r]).cfg.WellFormed ∧
    (waiting .asTimeout true 16 [.command r]).busy = true ∧
    (waiting .asTimeout true 16 [.command r]).inputs = .command r :: [] :=
  ⟨test_config_policies .asTimeout, rfl, rfl⟩

/-- One configuration for each distinctness condition; refused with an input and with none. -/
theorem witness_AmbiguousConfigurationIsRefused :
    (Config.pEnd { ref with pEnd := 0xDB } = 0xDB ∧ ref.pEsc = 0xDB) ∧
    (Config.pSubEnd { ref with pSubEnd := 0xC0 } = ref.pEnd) ∧ (Config.pSubEnd { ref with pSubEnd := 0xDB } = ref.pEsc) ∧
    (Config.pSubEsc { ref with pSubEsc := 0xC0 } = ref.pEnd) ∧ (Config.pSubEsc { ref with pSubEsc := 0xDB } = ref.pEsc) ∧
    (Config.pSubEnd { ref with pSubEnd := 0xDD } = ref.pSubEsc) ∧
    refusal (step { handed [.reset] with cfg := { ref with pSubEnd := 0xDD } }) = some .illFormedConfig ∧
    refusal (step { handed [] with cfg := { ref with pSubEnd := 0xDD } }) = some .illFormedConfig := by decide

theorem witness_ResetGivesResetValues : (handed [.reset]).cfg.WellFormed ∧ (handed [.reset]).inputs = .reset :: [] ∧
    ref.WellFormed := ⟨by decide, rfl, by decide⟩

/-- The reset clause, then the discard clause with and without another RECEIVE waiting; the answer just fits its bound. -/
theorem witness_AbandonedReadAnswerIsDiscarded :
    ((waiting .asTimeout true 16 [.reset]).cfg.WellFormed ∧
      (waiting .asTimeout true 16 [.reset]).pending = some ⟨0, 16, true⟩) ∧
    ((abandonedOne [.answer 0 .timeout]).Inv ∧ ⟨0, 16, true⟩ ∈ (abandonedOne [.answer 0 .timeout]).abandoned ∧
      AllowedAnswer (abandonedOne [.answer 0 .timeout]) ⟨0, 16, true⟩ .timeout) ∧
    (let s := waitingAndAbandoned [.answer 1 (.found [1, 2, 3])]
     s.Inv ∧ ⟨1, 4, false⟩ ∈ s.abandoned ∧ AllowedAnswer s ⟨1, 4, false⟩ (.found [1, 2, 3])) :=
  ⟨⟨by decide, rfl⟩, ⟨abandonedOne_inv _, List.mem_singleton_self _, fun _ h => nomatch h⟩,
    waitingAndAbandoned_inv _, List.mem_singleton_self _, by rintro bs ⟨⟩; exact ⟨by decide, by decide⟩⟩

/-- A RECEIVE that is left BUSY (MAXLEN 1), one that is not (MAXLEN 0), and one that is answered. -/
theorem witness_OnlyAWaitingReceiveIsBusy :
    (∃ t, exec (.receive 1) (start 0x1234 true) = .next t ∧ t.busy = true) ∧
    (∃ t, exec (.receive 0) (start 0x1234 true) = .next t ∧ t.busy = false) ∧
    (∃ t, answered true 16 .timeout = .next t ∧ t.busy = false) :=
  ⟨⟨_, rfl, rfl⟩, ⟨_, rfl, rfl⟩, ⟨_, rfl, rfl⟩⟩

theorem witness_CrcCommands : Takes .crcReset (start 0x2189 true) ∧ Takes .crcRead (start 0x2189 true) ∧
    Takes (.crcUpdate [0x48, 0x69]) (start 0x1234 true) ∧ Takes (.crcUpdate ([0x48] ++ [0x69])) (start 0x1234 true) ∧
    Takes (.crcUpdate (List.replicate 2 0x00)) (start 0x0000 true) ∧ (start 0x0000 true).crc = 0x0000 :=
  ⟨takes rfl rfl (by decide) rfl, takes rfl rfl (by decide) rfl, takes rfl rfl (by decide) rfl, takes rfl rfl (by decide) rfl,
    takes rfl rfl (by decide) rfl, rfl⟩

theorem witness_PseudoCrcLeavesChecksum :
    let s := handed ((pseudoCrc [0x48, 0x69]).map (fun i => .command (encode i)) ++ [.readRegister 1])
    Takes (.crcUpdate [0x48, 0x69]) s ∧
      s.inputs = (pseudoCrc [0x48, 0x69]).map (fun i => .command (encode i)) ++ [.readRegister 1] :=
  ⟨takes rfl rfl (by decide) rfl, rfl⟩

theorem witness_CrcLaws : ([0x48#8, 0x69].length = [0x01#8, 0x00].length) ∧ (0x48#8 ≠ 0x49#8) := by decide

theorem witness_EscapedReplacesSpecialBytes : ref.WellFormed ∧ 0x41 ≠ ref.pEnd ∧ 0x41 ≠ ref.pEsc := by decide

/-- An empty run and a run of two ordinary bytes; END and ESC are special. -/
theorem witness_EncodeChunksScansRuns : (∀ x ∈ ([] : List Byte), ¬ Special ref x) ∧
    (∀ x ∈ [0x41#8, 0xDC], ¬ Special ref x) ∧ Special ref 0xC0 ∧ Special ref 0xDB := by decide

/-- Empty and non-empty data, E = 0 and E = 1. -/
theorem witness_EncodeWritesEscapedData : Takes (encodeInstr false []) State.reset ∧
    Takes (encodeInstr true []) State.reset ∧ Takes (encodeInstr false [0x41, 0xC0]) State.reset ∧
    Takes (encodeInstr true [0x41, 0xC0]) State.reset :=
  ⟨takes rfl rfl (by decide) rfl, takes rfl rfl (by decide) rfl, takes rfl rfl (by decide) rfl, takes rfl rfl (by decide) rfl⟩

/-- The clauses of the outcome: a misread, an output one byte too long, one that exactly fits, an empty wire. Case (c) has no
witness: 40_codec.md R95 says it cannot occur. -/
theorem witness_DecodeClassifiesAndWrites :
    Takes (.decode 3 [0x41, 0xDB, 0xDC, 0x42]) State.reset ∧ (unescape ref [0xDB, 0x41]).2 = true ∧
    unescape ref [0x41, 0xDB, 0xDC, 0x42] = ([0x41, 0xC0, 0x42], false) ∧
    2 < [0x41#8, 0xC0, 0x42].length ∧ [0x41#8, 0xC0, 0x42].length ≤ 3 ∧ unescape ref [] = ([], false) :=
  ⟨takes rfl rfl (by decide) rfl, by decide⟩

theorem witness_DecodeRejectsMalformedEscapes : 0x41 ≠ ref.pSubEnd ∧ 0x41 ≠ ref.pSubEsc ∧
    unescape ref [0xDB, 0xDC, 0xC0] = ([0xC0, 0xC0], false) ∧
    Takes (.decode 4 ([0xDB, 0xDC, 0xC0] ++ ref.pEsc :: 0x41 :: [0x42])) State.reset ∧
    Takes (.decode 4 ([0xDB, 0xDC, 0xC0] ++ [ref.pEsc])) State.reset :=
  ⟨by decide, by decide, by decide, takes rfl rfl (by decide) rfl, takes rfl rfl (by decide) rfl⟩

theorem witness_DecodeInvertsEscaping : Takes (.decode 2 (escaped ref [0xC0, 0xDB])) State.reset ∧
    [0xC0#8, 0xDB].length ≤ 2 := ⟨takes rfl rfl (by decide) rfl, by decide⟩

theorem witness_EncodeLeaksNoTerminator : ref.WellFormed ∧ State.reset.cfg = ref ∧ [0xC0#8] ≠ [] ∧
    Takes (.encodeE [0xC0]) State.reset := ⟨by decide, rfl, by decide, takes rfl rfl (by decide) rfl⟩

theorem witness_WiresAreCanonical : ref.WellFormed ∧ ref.pEnd ∉ [0xDB#8, 0xDC] ∧
    unescape ref [0xDB, 0xDC] = ([0xC0], false) ∧ ([0xDB#8] : List Byte) ≠ [] := by decide

/-- Both flags, ready and not ready; the empty payload too. -/
theorem witness_Send : Takes (sendInstr true [0x48, 0x69]) (start 0x1234 true) ∧ Takes (sendInstr false []) (start 0 true) ∧
    (start 0x1234 true).nextReady = true ∧ (start 0x1234 false).nextReady = false ∧
    Takes (sendInstr true [0x48, 0x69]) (start 0x1234 false) :=
  ⟨takes rfl rfl (by decide) rfl, takes rfl rfl (by decide) rfl, rfl, rfl, takes rfl rfl (by decide) rfl⟩

/-- MAXLEN 0, 1 and P_BUF_BYTES; ready and not ready. -/
theorem witness_Receive : Takes (receiveInstr true 0) (start 0x1234 true) ∧
    Takes (receiveInstr false 1) (start 0x1234 true) ∧ Takes (receiveInstr true 256) (start 0x1234 true) ∧
    Takes (receiveInstr true 256) (start 0x1234 false) ∧ (start 0x1234 true).nextReady = true ∧
    (start 0x1234 false).nextReady = false :=
  ⟨takes rfl rfl (by decide) rfl, takes rfl rfl (by decide) rfl, takes rfl rfl (by decide) rfl,
    takes rfl rfl (by decide) rfl, rfl, rfl⟩

theorem witness_TransportFailureEndsReceive :
    AnsweredBy (waiting .asTimeout true 16 [.answer 0 .timeout]) ⟨0, 16, true⟩ .timeout ∧
    AnsweredBy (waiting .asTimeout false 256 [.answer 0 .overflow]) ⟨0, 256, false⟩ .overflow ∧
    Waiting (waiting .asTimeout false 1 []) ⟨0, 1, false⟩ ∧ (waiting .asTimeout false 1 []).inputs = [] :=
  ⟨waiting_answered _ _ _ _ (by decide) (by decide), waiting_answered _ _ _ _ (by decide) (by decide),
    ⟨waiting_inv _ _ _ _ (by decide) (by decide), rfl⟩, rfl⟩

/-- Both policies, both flags, and the read bound 0 of MAXLEN 1. -/
theorem witness_EmptyFrameFollowsPolicy (policy : EmptyFrame) (useCrc : Bool) :
    AnsweredBy (waiting policy useCrc 1 [.answer 0 (.found [])]) ⟨0, 1, useCrc⟩ (.found []) ∧
    (waiting policy useCrc 1 [.answer 0 (.found [])]).cfg.emptyFrame = policy :=
  ⟨waiting_answered _ _ _ _ (by decide) (by decide), rfl⟩

/-- A misread that exactly fills the read bound. -/
theorem witness_ReceivedMisreadIsEncodingError :
    let s := waiting .asTimeout true 3 [.answer 0 (.found [0xDB, 0x41])]
    AnsweredBy s ⟨0, 3, true⟩ (.found [0xDB, 0x41]) ∧ AllowedBytes s ⟨0, 3, true⟩ [0xDB, 0x41] ∧
      (unescape s.cfg [0xDB, 0x41]).2 = true :=
  ⟨waiting_answered _ _ _ _ (by decide) (by decide), ⟨by decide, by decide⟩, by decide⟩

/-- Wire bytes for each case of the CRC check, with both flags: equal, different, one byte. -/
theorem witness_ReceiveChecksAndDelivers (useCrc : Bool) (bs : List Byte) (h : bs = [0x48, 0x69, 0x76, 0x61] ∨
    bs = [0x48, 0x69, 0x76, 0x62] ∨ bs = [0x48]) :
    let s := waiting .asTimeout useCrc 5 [.answer 0 (.found bs)]
    AnsweredBy s ⟨0, 5, useCrc⟩ (.found bs) ∧ AllowedBytes s ⟨0, 5, useCrc⟩ bs ∧ bs ≠ [] ∧
      unescape s.cfg bs = (bs, false) := by
  refine ⟨waiting_answered _ _ _ _ (by decide) (by decide), ?_⟩
  rcases h with rfl | rfl | rfl <;> cases useCrc <;>
    exact ⟨⟨by decide, by decide⟩, by decide, by decide⟩

/-- The empty frame that is a message. -/
theorem witness_ReceiveChecksAndDelivers_empty (useCrc : Bool) :
    let s := waiting .asEmptyMessage useCrc 1 [.answer 0 (.found [])]
    AnsweredBy s ⟨0, 1, useCrc⟩ (.found []) ∧ AllowedBytes s ⟨0, 1, useCrc⟩ [] ∧
      s.cfg.emptyFrame = .asEmptyMessage ∧ unescape s.cfg [] = ([], false) :=
  ⟨waiting_answered _ _ _ _ (by decide) (by decide), ⟨Nat.le_refl 0, fun h => nomatch h⟩, rfl, rfl⟩

/-- The payload and field of those bytes. -/
theorem witness_ReceiveChecksAndDelivers_fields :
    [0x48#8, 0x69, 0x76, 0x61] = [0x48, 0x69] ++ [0x76, 0x61] ∧
    (crcFold 0x0000 [0x48, 0x69]).toNat = 256 * (0x76#8).toNat + (0x61#8).toNat ∧
    (crcFold 0x0000 [0x48, 0x69]).toNat ≠ 256 * (0x76#8).toNat + (0x62#8).toNat := by decide +kernel

theorem witness_ReceiveEndsInTerminalState :
    AnsweredBy (waiting .asTimeout true 16 [.answer 0 .timeout]) ⟨0, 16, true⟩ .timeout ∧
    AllowedAnswer (waiting .asTimeout true 16 [.answer 0 .timeout]) ⟨0, 16, true⟩ .timeout :=
  ⟨waiting_answered _ _ _ _ (by decide) (by decide), fun _ h => nomatch h⟩

/-- One byte above the bound, and the terminator within it, to the awaited read and to an abandoned one. -/
theorem witness_TransportContractIsEnforced_reads :
    ¬ AllowedBytes (waiting .asTimeout true 2 []) ⟨0, 2, true⟩ [0x41, 0x42] ∧
    ¬ AllowedBytes (waiting .asTimeout true 2 []) ⟨0, 2, true⟩ [0xC0] ∧
    (let s := waitingAndAbandoned [.answer 1 (.found [1, 2, 3, 4])]
     s.Inv ∧ ⟨1, 4, false⟩ ∈ s.abandoned ∧ ¬ AllowedBytes s ⟨1, 4, false⟩ [1, 2, 3, 4] ∧
       refusal (step s) = some .transportContract) :=
  ⟨fun h => absurd h.1 (by decide), fun h => absurd h.2 (by decide), waitingAndAbandoned_inv _,
    List.mem_singleton_self _, fun h => absurd h.1 (by decide), by decide⟩

/-- The second chunk of `SEND.C "Hi"` answered one byte short, and all three chunks answered whole. -/
theorem witness_TransportContractIsEnforced_writes :
    (writesOf (.sendC [0x48, 0x69]) { start 0 true with wrote := [2, 1] })[1]? = some [0x76, 0x61] ∧
    1 ≠ [0x76#8, 0x61].length ∧
    refusal (exec (.sendC [0x48, 0x69]) { start 0 true with wrote := [2, 1] }) = some .transportContract ∧
    (after (exec (.sendC [0x48, 0x69]) { start 0 true with wrote := [2, 2, 1, 7] })).map State.wrote = some [7] := by
  decide +kernel

/-- Answers to reads that do not exist, while idle and while another read waits. -/
theorem witness_TransportContractIsEnforced_noRead :
    ((handed [.answer 0 .timeout]).Inv ∧ (handed [.answer 0 .timeout]).abandoned = []) ∧
    (let s := waitingAndAbandoned [.answer 2 .timeout]
     s.Inv ∧ (∀ p, s.pending = some p → p.id ≠ 2) ∧ ∀ p ∈ s.abandoned, p.id ≠ 2) :=
  ⟨⟨handed_inv _, rfl⟩, waitingAndAbandoned_inv _, by rintro p ⟨⟩; decide,
    by intro p h; cases List.mem_singleton.mp h; decide⟩

/-- "Hi" sent with C = 1 and read with just enough room; and the empty frame that reads as a timeout. -/
theorem witness_SendReceiveRoundTrip :
    (∃ t, exec (sendInstr true [0x48, 0x69]) (start 0 true) = .next t ∧
      t.wire = (start 0 true).wire ++ [0x48, 0x69, 0x76, 0x61] ++ [ref.pEnd]) ∧
    Takes (sendInstr true [0x48, 0x69]) (start 0 true) ∧
    AnsweredBy (waiting .asTimeout true 5 [.answer 0 (.found [0x48, 0x69, 0x76, 0x61])]) ⟨0, 5, true⟩
      (.found [0x48, 0x69, 0x76, 0x61]) ∧
    (∃ t, exec (sendInstr false []) (start 0 true) = .next t ∧ t.wire = (start 0 true).wire ++ [] ++ [ref.pEnd]) ∧
    AnsweredBy (waiting .asTimeout false 1 [.answer 0 (.found [])]) ⟨0, 1, false⟩ (.found []) :=
  ⟨⟨_, rfl, by decide +kernel⟩, takes rfl rfl (by decide) rfl, waiting_answered _ _ _ _ (by decide) (by decide),
    ⟨_, rfl, by decide⟩, waiting_answered _ _ _ _ (by decide) (by decide)⟩

/-- A changed payload byte (V-COR-1) and a changed byte of the CRC field (V-COR-3). -/
theorem witness_OneCorruptedByteIsDetected :
    [0x48#8, 0x69] ++ crc16Be (crcFold 0x0000 [0x48, 0x69]) = [] ++ 0x48 :: [0x69, 0x76, 0x61] ∧
    [0x48#8, 0x69] ++ crc16Be (crcFold 0x0000 [0x48, 0x69]) = [0x48, 0x69, 0x76] ++ 0x61 :: [] ∧
    unescape ref [0x49, 0x69, 0x76, 0x61] = ([] ++ 0x49 :: [0x69, 0x76, 0x61], false) ∧
    unescape ref [0x48, 0x69, 0x76, 0x60] = ([0x48, 0x69, 0x76] ++ 0x60 :: [], false) ∧
    AnsweredBy (waiting .asTimeout true 16 [.answer 0 (.found [0x49, 0x69, 0x76, 0x61])]) ⟨0, 16, true⟩
      (.found [0x49, 0x69, 0x76, 0x61]) ∧
    AllowedBytes (waiting .asTimeout true 16 []) ⟨0, 16, true⟩ [0x49, 0x69, 0x76, 0x61] :=
  ⟨by decide +kernel, by decide +kernel, by decide, by decide, waiting_answered _ _ _ _ (by decide) (by decide),
    by decide, by decide⟩

/-- The registers 0, 1, 2 and the first number that is none, while idle and while a RECEIVE waits. -/
theorem witness_RegisterPortReads (n : Nat) (_h : n ∈ [0, 1, 2, 3]) : (handed [.readRegister n]).cfg.WellFormed ∧
    (handed [.readRegister n]).inputs = .readRegister n :: [] ∧ (handed [.readRegister n]).busy = false ∧
    (waiting .asTimeout true 16 [.readRegister n]).cfg.WellFormed ∧
    (waiting .asTimeout true 16 [.readRegister n]).busy = true :=
  ⟨test_config_reference_admitted, rfl, rfl, test_config_policies .asTimeout, rfl⟩

/-- The last address of OUTBUF and the first that does not exist. -/
theorem witness_OutbufIsReadByAddress : (handed [.readOutbuf 255]).cfg.WellFormed ∧ (handed [.readOutbuf 255]).busy = false ∧
    255 < (handed [.readOutbuf 255]).cfg.bufBytes ∧ (handed [.readOutbuf 256]).cfg.bufBytes ≤ 256 := by decide

/-- A command and a port read that go on. -/
theorem witness_OnlyNamedCommandsWrite : (∃ t, exec (.decode 3 [0x41]) State.reset = .next t) ∧
    (∃ t, step (handed [.readRegister 2]) = .next t) ∧ (∃ t, step (handed [.readOutbuf 0]) = .next t) :=
  ⟨⟨_, rfl⟩, ⟨_, rfl⟩, ⟨_, rfl⟩⟩

/-- A step that goes on and writes to TX: for the statements about every step. -/
theorem witness_step_next : ∃ t, step (handed [.command ⟨0x04, none, some [0x41]⟩]) = .next t ∧ t.tx = [[0x41]] :=
  ⟨_, rfl, rfl⟩

/-- Two states that differ in COUNT, ERR, RXSTATE, OUTBUF and CRC only. -/
theorem witness_NoStateLeaksBetweenMessages :
    let s' := { State.reset with
      crc := 0x1234, count := 7, err := .errorEncoding, rxState := .delivered, outbuf := [(0, 0x41)] }
    AgreeButResults State.reset s' ∧ (∃ t, exec (.decode 1 [0x41]) State.reset = .next t) :=
  ⟨⟨rfl, rfl, rfl, rfl, rfl, rfl, rfl, rfl, rfl, rfl, rfl⟩, ⟨_, rfl⟩⟩

/-- A state that meets the invariant, while idle and while a RECEIVE waits, and a step from each. -/
theorem witness_StepKeepsInv : ((handed [.command ⟨0x01, none, none⟩]).Inv ∧
      ∃ t, step (handed [.command ⟨0x01, none, none⟩]) = .next t) ∧
    ((waiting .asTimeout true 16 [.answer 0 .timeout]).Inv ∧
      ∃ t, step (waiting .asTimeout true 16 [.answer 0 .timeout]) = .next t) :=
  ⟨⟨handed_inv _, ⟨_, rfl⟩⟩, waiting_inv _ _ _ _ (by decide) (by decide), ⟨_, rfl⟩⟩

/-- A run of two commands that meets no stop (60_exceptions.md R184). -/
theorem test_runsSafely : RunsSafely (handed [.command ⟨0x01, none, none⟩, .command ⟨0x03, none, none⟩]) 2 :=
  ⟨_, rfl, _, rfl, trivial⟩

end Sys2Proof.Tests
end

section
/-! Refusal of a configuration that is not admitted (00_scope.md R13): every input's step, and the step where none comes,
passes through `withConfig`. -/

namespace Sys2Proof.Machine

/-- The other side of `withConfig_of_wellFormed`. -/
theorem withConfig_illFormed {s : State} (h : ¬ s.cfg.WellFormed) (k : Host.Outcome State Fault Refusal) :
    withConfig s k = .refused .illFormedConfig := if_neg h

/-- A record that decodes and one that does not are refused alike, by `takeCommand`. -/
theorem issueCommand_illFormed {s : State} (h : ¬ s.cfg.WellFormed) (c : Command) :
    issueCommand c s = .refused .illFormedConfig := by
  unfold issueCommand
  split
  · next i _ => rw [exec_eq_takeCommand, takeCommand_illFormed h]
  · exact takeCommand_illFormed h

theorem accept_illFormed {s : State} (h : ¬ s.cfg.WellFormed) (i : Input) :
    accept i s = .refused .illFormedConfig := by
  cases i with
  | command c => exact issueCommand_illFormed h c
  | answer readId a => exact withConfig_illFormed h _
  | reset => exact withConfig_illFormed h _
  | readRegister n => exact withConfig_illFormed h _
  | readOutbuf addr => exact withConfig_illFormed h _

/-- Taking the input leaves the configuration alone, so `accept` and `idle` both refuse. -/
theorem step_illFormed {s : State} (h : ¬ s.cfg.WellFormed) : step s = .refused .illFormedConfig := by
  cases hi : s.inputs with
  | nil =>
    have hstep : step s = idle s := by unfold step; rw [hi]
    rw [hstep]
    exact withConfig_illFormed h _
  | cons i rest =>
    rw [step_of_inputs hi]
    exact accept_illFormed (s := s.withInputs rest) h i

/-- Settles O9: the disjunction of the six equalities is the negation of `Config.BytesDistinct`, so the configuration is
not admitted, and every step from it is refused. -/
theorem ambiguousConfigurationIsRefused : Obligations.AmbiguousConfigurationIsRefused := by
  intro s hambiguous
  have hbytes : ¬ s.cfg.BytesDistinct := by
    rintro ⟨hEndEsc, hSubEndEnd, hSubEndEsc, hSubEscEnd, hSubEscEsc, hSubs⟩
    simp only [hEndEsc, hSubEndEnd, hSubEndEsc, hSubEscEnd, hSubEscEsc, hSubs, or_self] at hambiguous
  exact step_illFormed fun hc => hbytes hc.1

end Sys2Proof.Machine
end

section
/-! BUSY (10_state.md R28): of the commands, only a RECEIVE that issues its read sets it, and the completion step clears it. -/

namespace Sys2Proof.Machine

@[simp] theorem encodeEffect_busy (appendEnd : Bool) (raw : List Byte) (s : State) :
    (encodeEffect appendEnd raw s).busy = s.busy := rfl

@[simp] theorem decodeEffect_busy (maxlen : Nat) (wire : List Byte) (s : State) :
    (decodeEffect maxlen wire s).busy = s.busy := by
  simp only [decodeEffect]
  split <;> rfl

@[simp] theorem sendEffect_busy (useCrc : Bool) (payload : List Byte) (s : State) :
    (sendEffect useCrc payload s).busy = s.busy := by
  simp only [sendEffect]
  split <;> rfl

/-- RECEIVE takes BUSY only where it issues its read: the transport is ready and MAXLEN is not 0 (42_framer.md R141). -/
theorem receiveEffect_busy (useCrc : Bool) (maxlen : Nat) (s : State) :
    (receiveEffect useCrc maxlen s).busy = true ↔ s.busy = true ∨ (s.nextReady = true ∧ 1 ≤ maxlen) := by
  cases hready : s.nextReady with
  | false => simp [receiveEffect_notReady useCrc maxlen hready]
  | true =>
    cases maxlen with
    | zero => simp [receiveEffect_zero useCrc hready]
    | succ m => simp [receiveEffect_reads useCrc hready]

theorem effectOf_receiveInstr (useCrc : Bool) (maxlen : Nat) :
    effectOf (receiveInstr useCrc maxlen) = receiveEffect useCrc maxlen := by
  cases useCrc <;> rfl

/-- A command that is no RECEIVE leaves BUSY alone. -/
theorem effectOf_busy_of_not_receive {i : Instr} (h : ∀ useCrc maxlen, i ≠ receiveInstr useCrc maxlen) (s : State) :
    (effectOf i s).busy = s.busy := by
  cases i with
  | crcReset | crcUpdate _ | crcRead => rfl
  | encode _ | encodeE _ => exact encodeEffect_busy _ _ s
  | decode _ _ => exact decodeEffect_busy _ _ s
  | send _ | sendC _ => exact sendEffect_busy _ _ s
  | receive maxlen => exact absurd rfl (h false maxlen)
  | receiveC maxlen => exact absurd rfl (h true maxlen)

/-- Issued while BUSY = 0, a command leaves BUSY = 1 exactly when it is a RECEIVE that issues its read. -/
theorem effectOf_busy {s : State} (hbusy : s.busy = false) (i : Instr) :
    (effectOf i s).busy = true ↔
      ∃ useCrc maxlen, i = receiveInstr useCrc maxlen ∧ s.nextReady = true ∧ 1 ≤ maxlen := by
  have receive_busy (useCrc maxlen) :
      (effectOf (receiveInstr useCrc maxlen) s).busy = true ↔ s.nextReady = true ∧ 1 ≤ maxlen := by
    simp [effectOf_receiveInstr, receiveEffect_busy, hbusy]
  constructor
  · intro h
    by_cases hreceive : ∃ useCrc maxlen, i = receiveInstr useCrc maxlen
    · obtain ⟨useCrc, maxlen, rfl⟩ := hreceive
      exact ⟨useCrc, maxlen, rfl, (receive_busy useCrc maxlen).mp h⟩
    · rw [effectOf_busy_of_not_receive (fun u m hi => hreceive ⟨u, m, hi⟩), hbusy] at h
      cases h
  · rintro ⟨useCrc, maxlen, rfl, hissues⟩
    exact (receive_busy useCrc maxlen).mpr hissues

/-- However a RECEIVE ends, its completion step clears BUSY (42_framer.md R141). -/
@[simp] theorem completeRead_busy (p : PendingRead) (a : ReadAnswer) (s : State) :
    (completeRead p a s).busy = false := by
  obtain ⟨c, code, rx, hend, -⟩ | ⟨c, bs, m, -, hend, -⟩ := completeRead_cases p a s <;> rw [hend] <;> rfl

/-- The step that takes the answer to the awaited read is its completion step: the awaited read is looked up before the
abandoned ones. -/
theorem step_answer_awaited {s t : State} {p : PendingRead} {a : ReadAnswer} {rest : List Input}
    (hp : s.pending = some p) (hi : s.inputs = .answer p.id a :: rest) (h : step s = .next t) :
    t = completeRead p a (s.withInputs rest) := by
  have hawaited : (s.withInputs rest).awaitedRead p.id = some p := awaitedRead_eq_some.mpr ⟨hp, rfl⟩
  rw [step_of_inputs hi] at h
  obtain ⟨-, h⟩ := withConfig_next.mp h
  rw [hawaited] at h
  obtain ⟨-, h⟩ := withAllowed_next.mp h
  cases h
  rfl

/-- Settles O12: a command that goes on was issued while BUSY = 0 and has its effect, the awaited answer runs the
completion step, and `takeCommand` refuses every command while BUSY = 1. -/
theorem onlyAWaitingReceiveIsBusy : Obligations.OnlyAWaitingReceiveIsBusy := by
  refine ⟨fun i s t h => ?_, fun s t p a hanswered h => ?_, fun i s hc _ hbusy => ?_⟩
  · obtain ⟨-, hbusy, -, -, rfl⟩ := exec_next.mp h
    exact effectOf_busy hbusy i
  · obtain ⟨⟨-, hp⟩, rest, hi⟩ := hanswered
    rw [step_answer_awaited hp hi h]
    exact completeRead_busy p a _
  · rw [exec_eq_takeCommand]
    exact takeCommand_busy hc hbusy

end Sys2Proof.Machine
end

section
/-! The register port (10_state.md R36): the fields of STATUS, and what a read of each number returns and writes. -/

namespace Sys2Proof.Machine

theorem statusByte_err (err : ErrCode) (rx : RxState) (busy : Bool) :
    (statusByte err rx busy).extractLsb' 0 3 = err.code := BitVec.extractLsb'_append_eq_right

/-- RXSTATE stands right above the 3 bits of ERR. -/
theorem statusByte_rxState (err : ErrCode) (rx : RxState) (busy : Bool) :
    (statusByte err rx busy).extractLsb' 3 3 = rx.code :=
  (BitVec.extractLsb'_append_eq_of_le le_rfl).trans BitVec.extractLsb'_append_eq_right

/-- Above ERR and RXSTATE stand the two single bits: bit `6 + k` of STATUS is bit `k` of them. -/
theorem statusByte_getLsbD_above (err : ErrCode) (rx : RxState) (busy : Bool) (k : Nat) :
    (statusByte err rx busy).getLsbD (k + 3 + 3) = (0#1 ++ BitVec.ofBool busy).getLsbD k := by
  have above {n : Nat} (x : BitVec n) (y : BitVec 3) (j : Nat) : (x ++ y).getLsbD (j + 3) = x.getLsbD j := by
    rw [BitVec.getLsbD_append, if_neg (by omega), Nat.add_sub_cancel]
  exact (above _ err.code (k + 3)).trans (above _ rx.code k)

theorem statusByte_busy (err : ErrCode) (rx : RxState) (busy : Bool) :
    (statusByte err rx busy).getLsbD 6 = busy := by
  rw [statusByte_getLsbD_above err rx busy 0]
  cases busy <;> rfl

theorem statusByte_reserved (err : ErrCode) (rx : RxState) (busy : Bool) :
    (statusByte err rx busy).getLsbD 7 = false := by
  rw [statusByte_getLsbD_above err rx busy 1]
  cases busy <;> rfl

/-- What the port may return for register `n`: STATUS exactly, CRC and COUNT exactly while BUSY = 0, and while BUSY = 1 any
value of their width (10_state.md R36). -/
def PortValue (s : State) (n : Nat) (value : Reply) : Prop :=
  (n = 0 → ∃ v : BitVec 8, value = .status v ∧ v.extractLsb' 0 3 = s.err.code ∧
    v.extractLsb' 3 3 = s.rxState.code ∧ v.getLsbD 6 = s.busy ∧ v.getLsbD 7 = false) ∧
  (n = 1 → ∃ v, value = .crc v ∧ (s.busy = false → v = s.crc)) ∧
  (n = 2 → ∃ v, value = .count v ∧ (s.busy = false → v = s.count) ∧ (s.busy = true → v < 2 ^ s.cfg.lenBits))

theorem portValue_status (s : State) : PortValue s 0 (.status (statusByte s.err s.rxState s.busy)) :=
  ⟨fun _ => ⟨_, rfl, statusByte_err .., statusByte_rxState .., statusByte_busy .., statusByte_reserved ..⟩, nofun, nofun⟩

theorem portValue_crc {s : State} {v : Word16} (h : s.busy = false → v = s.crc) : PortValue s 1 (.crc v) :=
  ⟨nofun, fun _ => ⟨v, rfl, h⟩, nofun⟩

theorem portValue_count {s : State} {v : Nat} (hidle : s.busy = false → v = s.count)
    (hbusy : s.busy = true → v < 2 ^ s.cfg.lenBits) : PortValue s 2 (.count v) :=
  ⟨nofun, nofun, fun _ => ⟨v, rfl, hidle, hbusy⟩⟩

/-- A number that is no register. -/
theorem readRegister_bad {s : State} (hc : s.cfg.WellFormed) {n : Nat} (hn : 3 ≤ n) :
    readRegister n s = .refused (.badRegisterNumber n) := by
  obtain ⟨k, rfl⟩ := Nat.exists_eq_add_of_le' hn
  exact withConfig_of_wellFormed hc _

/-- A read of a register returns a value the port may return; besides that reply only the count of free draws may change. -/
theorem readRegister_register {s : State} (hc : s.cfg.WellFormed) {n : Nat} (hn : n < 3) :
    ∃ value draws, PortValue s n value ∧ readRegister n s = .next { s.reply value with draws := draws } := by
  unfold readRegister
  rw [withConfig_of_wellFormed hc]
  obtain rfl | rfl | rfl : n = 0 ∨ n = 1 ∨ n = 2 := by omega
  · exact ⟨_, s.draws, portValue_status s, rfl⟩
  · cases hbusy : s.busy with
    | false => exact ⟨.crc s.crc, s.draws, portValue_crc fun _ => rfl, rfl⟩
    | true => exact ⟨_, s.draws + 1, portValue_crc (by simp [hbusy]), rfl⟩
  · cases hbusy : s.busy with
    | false => exact ⟨.count s.count, s.draws, portValue_count (fun _ => rfl) (by simp [hbusy]), rfl⟩
    | true =>
      exact ⟨_, s.draws + 1, portValue_count (by simp [hbusy]) fun _ => Nat.mod_lt _ (Nat.two_pow_pos _), rfl⟩

/-- Settles O50: a read of 3 or more is refused, and below 3 the step replies a value the port may return and writes no
other field but the count of free draws. -/
theorem registerPortReads : Obligations.RegisterPortReads := by
  intro s n rest hc hi
  have hstep : step s = readRegister n (s.withInputs rest) := step_of_inputs hi
  refine ⟨fun hn => hstep.trans (readRegister_bad (s := s.withInputs rest) hc hn), fun hn => ?_⟩
  obtain ⟨value, draws, ⟨hstatus, hcrc, hcount⟩, hread⟩ := readRegister_register (s := s.withInputs rest) hc hn
  exact ⟨_, value, hstep.trans hread, rfl, hstatus, hcrc, hcount,
    rfl, rfl, rfl, rfl, rfl, fun _ => rfl, rfl, rfl, rfl, rfl, rfl, rfl, rfl, rfl⟩

end Sys2Proof.Machine
end

section
/-! The OP table (30_encoding.md R61, R62): the fields each operation has in CMD, and which records decode to a command. -/

namespace Sys2Proof

/-- The OP field of an operation (30_encoding.md R62). -/
def Op.number : Op → Nat
  | .crcReset => 1
  | .crcUpdate => 2
  | .crcRead => 3
  | .encode _ => 4
  | .decode => 5
  | .send _ => 6
  | .receive _ => 7

/-- The C field of an operation (30_encoding.md R63). -/
def Op.useCrc : Op → Bool
  | .send c | .receive c => c
  | .crcReset | .crcUpdate | .crcRead | .encode _ | .decode => false

/-- The E field of an operation (30_encoding.md R64). -/
def Op.appendEnd : Op → Bool
  | .encode e => e
  | .crcReset | .crcUpdate | .crcRead | .decode | .send _ | .receive _ => false

theorem cmdOp_toNat (cmd : Byte) : (cmdOp cmd).toNat = cmd.toNat % 16 := by
  simp [cmdOp, BitVec.extractLsb'_toNat]

theorem cmdZ_eq_zero (cmd : Byte) : cmdZ cmd = 0#2 ↔ cmd.toNat / 64 = 0 := by
  have := cmd.isLt
  rw [cmdZ, ← BitVec.toNat_inj, BitVec.extractLsb'_toNat, Nat.shiftRight_eq_div_pow, BitVec.toNat_ofNat]
  omega

/-- The fields of CMD, in the order in which the decoder looks at them (30_encoding.md R61). -/
theorem hasFields_iff (cmd : Byte) (op : Nat) (c e : Bool) : Machine.HasFields cmd op c e ↔
    cmdZ cmd = 0#2 ∧ (cmdOp cmd).toNat = op ∧ cmdC cmd = c ∧ cmdE cmd = e := by
  rw [cmdOp_toNat, cmdZ_eq_zero]
  exact ⟨fun ⟨hop, hc, he, hz⟩ => ⟨hz, hop, hc, he⟩, fun ⟨hz, hop, hc, he⟩ => ⟨hop, hc, he, hz⟩⟩

/-- A check of the decoder that leads to an error. -/
theorem ite_error_eq_ok {p : Prop} [Decidable p] {err : DecodeError} {k : Except DecodeError Op} {op : Op} :
    (if p then .error err else k) = .ok op ↔ ¬ p ∧ k = .ok op := by
  split <;> simp [*]

/-- A CMD byte selects an operation exactly when its four fields are that operation's (30_encoding.md R69). -/
theorem decodeCmd_eq_ok (cmd : Byte) (op : Op) :
    decodeCmd cmd = .ok op ↔ Machine.HasFields cmd op.number op.useCrc op.appendEnd := by
  rw [hasFields_iff]
  unfold decodeCmd
  rw [ite_error_eq_ok, not_not]
  refine and_congr_right fun _ => ?_
  generalize (cmdOp cmd).toNat = n, cmdC cmd = c, cmdE cmd = e
  split <;> cases op <;> simp_all [ite_error_eq_ok, Op.number, Op.useCrc, Op.appendEnd, and_comm]

theorem rejectMaxlen_eq_ok {m : Option Nat} {k : Except DecodeError Instr} {i : Instr} :
    rejectMaxlen m k = .ok i ↔ m = none ∧ k = .ok i := by
  cases m <;> simp [rejectMaxlen]

theorem rejectData_eq_ok {d : Option (List Byte)} {k : Except DecodeError Instr} {i : Instr} :
    rejectData d k = .ok i ↔ d = none ∧ k = .ok i := by
  cases d <;> simp [rejectData]

theorem takeMaxlen_eq_ok {m : Option Nat} {k : Nat → Except DecodeError Instr} {i : Instr} :
    takeMaxlen m k = .ok i ↔ ∃ n, m = some n ∧ k n = .ok i := by
  cases m <;> simp [takeMaxlen]

theorem takeData_eq_ok {d : Option (List Byte)} {k : List Byte → Except DecodeError Instr} {i : Instr} :
    takeData d k = .ok i ↔ ∃ xs, d = some xs ∧ k xs = .ok i := by
  cases d <;> simp [takeData]

/-- A record decodes to a command exactly when its CMD selects the command's operation and its operands are the command's
(30_encoding.md R60, R62). -/
theorem decode_eq_ok (r : Command) (i : Instr) :
    decode r = .ok i ↔ decodeCmd r.cmd = .ok i.op ∧ r.maxlen = i.maxlenOperand ∧ r.data = i.dataOperand := by
  constructor
  · intro h
    unfold decode at h
    -- Every branch fixes the operation, the presence of both operands and the command.
    split at h <;>
      simp only [reduceCtorEq, rejectMaxlen_eq_ok, rejectData_eq_ok, takeMaxlen_eq_ok, takeData_eq_ok] at h <;>
      grind [Instr.op, Instr.maxlenOperand, Instr.dataOperand]
  · obtain ⟨cmd, maxlen, data⟩ := r
    rintro ⟨hop, rfl, rfl⟩
    unfold decode
    rw [hop]
    cases i <;> rfl

/-- The rows of the OP table, all in one form. -/
theorem fitsRow_iff (r : Command) (i : Instr) : Machine.FitsRow r i ↔
    Machine.HasFields r.cmd i.op.number i.op.useCrc i.op.appendEnd ∧ r.maxlen = i.maxlenOperand ∧
      r.data = i.dataOperand := by
  cases i <;> exact Iff.rfl

/-- Settles O1: the CMD byte selects the command's operation exactly when its fields are those of the row, and the
operands are checked one by one. -/
theorem decodeFollowsOpTable : Obligations.DecodeFollowsOpTable := by
  intro r i
  rw [decode_eq_ok, decodeCmd_eq_ok, fitsRow_iff]

end Sys2Proof
end

section
/-! IllegalCommand (30_encoding.md R67): the records it refuses are those that fit no row of the OP table, and those that
fit one with an operand out of the bounds of R66. -/

namespace Sys2Proof.Machine

/-- CMD fields that break none of the conditions of 30_encoding.md R67 are those of an operation. -/
theorem exists_op_of_legal_fields {n : Nat} {c e : Bool} (hop : ¬ (n = 0 ∨ 8 ≤ n))
    (hc : ¬ (c = true ∧ n ≠ 6 ∧ n ≠ 7)) (he : ¬ (e = true ∧ n ≠ 4)) :
    ∃ op : Op, n = op.number ∧ c = op.useCrc ∧ e = op.appendEnd := by
  obtain rfl | rfl | rfl | rfl | rfl | rfl | rfl :
    n = 1 ∨ n = 2 ∨ n = 3 ∨ n = 4 ∨ n = 5 ∨ n = 6 ∨ n = 7 := by omega
  all_goals simp at hc he
  · exact ⟨.crcReset, rfl, hc, he⟩
  · exact ⟨.crcUpdate, rfl, hc, he⟩
  · exact ⟨.crcRead, rfl, hc, he⟩
  · exact ⟨.encode e, rfl, hc, rfl⟩
  · exact ⟨.decode, rfl, hc, he⟩
  · exact ⟨.send c, rfl, rfl, he⟩
  · exact ⟨.receive c, rfl, rfl, he⟩

/-- Operands that are present exactly where the operation takes them make up a command of that operation. -/
theorem exists_instr_of_legal_operands {op : Op} {maxlen : Option Nat} {data : Option (List Byte)}
    (hmExtra : ¬ (maxlen ≠ none ∧ op.number ≠ 5 ∧ op.number ≠ 7))
    (hmAbsent : ¬ (maxlen = none ∧ (op.number = 5 ∨ op.number = 7)))
    (hdExtra : ¬ (data ≠ none ∧ op.number ≠ 2 ∧ op.number ≠ 4 ∧ op.number ≠ 5 ∧ op.number ≠ 6))
    (hdAbsent : ¬ (data = none ∧ (op.number = 2 ∨ op.number = 4 ∨ op.number = 5 ∨ op.number = 6))) :
    ∃ i : Instr, op = i.op ∧ maxlen = i.maxlenOperand ∧ data = i.dataOperand := by
  cases maxlen <;> cases data <;> cases op <;> simp [Op.number] at hmExtra hmAbsent hdExtra hdAbsent
  case none.none.crcReset => exact ⟨.crcReset, rfl, rfl, rfl⟩
  case none.none.crcRead => exact ⟨.crcRead, rfl, rfl, rfl⟩
  case none.some.crcUpdate d => exact ⟨.crcUpdate d, rfl, rfl, rfl⟩
  case none.some.encode d e => cases e; exacts [⟨.encode d, rfl, rfl, rfl⟩, ⟨.encodeE d, rfl, rfl, rfl⟩]
  case none.some.send d c => cases c; exacts [⟨.send d, rfl, rfl, rfl⟩, ⟨.sendC d, rfl, rfl, rfl⟩]
  case some.none.receive m c => cases c; exacts [⟨.receive m, rfl, rfl, rfl⟩, ⟨.receiveC m, rfl, rfl, rfl⟩]
  case some.some.decode m d => exact ⟨.decode m d, rfl, rfl, rfl⟩

/-- A record that meets none of the conditions of 30_encoding.md R67 fits a row of the OP table. -/
theorem exists_fitsRow_of_legal {c : Config} {r : Command} (h : ¬ IllegalRecord c r) : ∃ i, FitsRow r i := by
  simp only [IllegalRecord, not_or] at h
  obtain ⟨hop, hz, hc, he, hmExtra, hmAbsent, hdExtra, hdAbsent, -⟩ := h
  obtain ⟨op, hnumber, huseCrc, happendEnd⟩ := exists_op_of_legal_fields (not_or.mpr hop) hc he
  rw [hnumber] at hmExtra hmAbsent hdExtra hdAbsent
  obtain ⟨i, rfl, hmaxlen, hdata⟩ := exists_instr_of_legal_operands hmExtra hmAbsent hdExtra hdAbsent
  exact ⟨i, (fitsRow_iff r i).mpr ⟨⟨hnumber, huseCrc, happendEnd, not_not.mp hz⟩, hmaxlen, hdata⟩⟩

/-- A record that fits a row of the OP table is illegal exactly when an operand breaks the bounds of R66. -/
theorem illegalRecord_iff_of_fitsRow {c : Config} {r : Command} {i : Instr} (h : FitsRow r i) :
    IllegalRecord c r ↔ ¬ i.wellFormed c = true := by
  obtain ⟨⟨hop, hc, he, hz⟩, hm, hd⟩ := (fitsRow_iff r i).mp h
  simp only [IllegalRecord, hop, hc, he, hz, hm, hd]
  cases i <;> simp [Instr.op, Op.number, Op.useCrc, Op.appendEnd, Instr.maxlenOperand, Instr.dataOperand,
    Config.maxCount]
  case decode => omega
  case sendC => omega

/-- Taking the input from the caller changes nothing a command's chunks depend on. -/
@[simp] theorem writesOf_withInputs (i : Instr) (s : State) (rest : List Input) :
    writesOf i (s.withInputs rest) = writesOf i s := by
  cases i <;> rfl

/-- The record is refused where the decoder finds no command, and where the command's operands are out of bounds. -/
theorem issueCommand_of_illegal {s : State} {r : Command} (hc : s.cfg.WellFormed) (hb : s.busy = false)
    (h : IllegalRecord s.cfg r) : issueCommand r s = .refused .illegalCommand := by
  unfold issueCommand
  split
  · next i hi =>
    have hwf : i.wellFormed s.cfg = false :=
      eq_false_of_ne_true ((illegalRecord_iff_of_fitsRow ((decodeFollowsOpTable r i).mp hi)).mp h)
    rw [exec_eq_takeCommand, hwf]
    exact takeCommand_illegal hc hb
  · exact takeCommand_illegal hc hb

theorem issueCommand_of_legal {s : State} {r : Command} (hc : s.cfg.WellFormed) (hb : s.busy = false)
    (h : ¬ IllegalRecord s.cfg r) (hw : ∀ i, decode r = .ok i → WritesAccepted i s) :
    ∃ t, issueCommand r s = .next t := by
  obtain ⟨i, hrow⟩ := exists_fitsRow_of_legal h
  have hi : decode r = .ok i := (decodeFollowsOpTable r i).mpr hrow
  have hwf : i.wellFormed s.cfg = true := not_not.mp (mt (illegalRecord_iff_of_fitsRow hrow).mpr h)
  refine ⟨effectOf i s, ?_⟩
  rw [issueCommand, hi]
  exact exec_of_admitted hc hb hwf (hw i hi)

/-- Settles O7: the step on a command record is `issueCommand` on the state with the input taken, which has the same
configuration, BUSY and transport. -/
theorem illegalCommandsAreRefused : Obligations.IllegalCommandsAreRefused := by
  intro s r rest hc hb hi
  have hstep : step s = issueCommand r (s.withInputs rest) := step_of_inputs hi
  rw [hstep]
  refine ⟨fun h => issueCommand_of_illegal (s := s.withInputs rest) hc hb h, fun h hw => ?_⟩
  refine issueCommand_of_legal (s := s.withInputs rest) hc hb h fun i hd => ?_
  rw [WritesAccepted, writesOf_withInputs]
  exact hw i hd

end Sys2Proof.Machine
end

section
/-! Escaped bytes and the wire frame (30_encoding.md R72 to R74): no END among escaped bytes, every ESC followed by a
substitute, and the chunks of a command joined. -/

namespace Sys2Proof.Machine

/-- The scan of `encode_chunks` loses no byte: the pending run, then the escaped rest (40_codec.md R82). -/
theorem encodeChunksFrom_flatten (c : Config) (run raw : List Byte) :
    (encodeChunksFrom c run raw).flatten = run ++ escaped c raw := by
  have flushRun_flatten (run : List Byte) : (flushRun run).flatten = run := by
    unfold flushRun
    split <;> simp [*]
  induction raw generalizing run with
  | nil => simp [encodeChunksFrom, escaped, flushRun_flatten]
  | cons b rest ih =>
    unfold encodeChunksFrom
    split
    · simp [ih, escaped, flushRun_flatten]
    · next hordinary =>
      obtain ⟨hEnd, hEsc⟩ := not_or.mp hordinary
      simp [ih, escaped, esc, hEnd, hEsc]

@[simp] theorem encodeChunks_flatten (c : Config) (raw : List Byte) : (encodeChunks c raw).flatten = escaped c raw :=
  encodeChunksFrom_flatten c [] raw

/-- The chunks of a frame join to the frame. -/
@[simp] theorem frameChunks_flatten (c : Config) (useCrc : Bool) (payload : List Byte) :
    (frameChunks c useCrc payload).flatten = wireFrame c useCrc payload := by
  cases useCrc <;> simp [frameChunks, wireFrame]

theorem not_pEnd_mem_esc {c : Config} (hc : c.BytesDistinct) (b : Byte) : c.pEnd ∉ esc c b := by
  obtain ⟨hEndEsc, hSubEndEnd, -, hSubEscEnd, -, -⟩ := hc
  unfold esc
  split
  · simp [hEndEsc, hSubEndEnd.symm]
  · split
    · simp [hEndEsc, hSubEscEnd.symm]
    · next hb _ => simpa using Ne.symm hb

/-- END does not stand in escaped bytes (30_encoding.md R74, 40_codec.md R102). -/
theorem not_pEnd_mem_escaped {c : Config} (hc : c.BytesDistinct) (xs : List Byte) : c.pEnd ∉ escaped c xs := by
  induction xs with
  | nil => simp [escaped]
  | cons b rest ih => simp [escaped, not_pEnd_mem_esc hc b, ih]

/-- A byte that is no ESC, put in front, pairs nothing and breaks no pair. -/
theorem EscapesPaired.cons {c : Config} {b : Byte} {xs : List Byte} (hb : b ≠ c.pEsc) (h : EscapesPaired c xs) :
    EscapesPaired c (b :: xs)
  | 0, hk => absurd (Option.some.inj hk) hb
  | k + 1, hk => h k hk

/-- An ESC put in front is paired by its substitute byte, which is no ESC itself. -/
theorem EscapesPaired.cons_pair {c : Config} {sub : Byte} {xs : List Byte} (hsub : sub = c.pSubEnd ∨ sub = c.pSubEsc)
    (hne : sub ≠ c.pEsc) (h : EscapesPaired c xs) : EscapesPaired c (c.pEsc :: sub :: xs)
  | 0, _ => hsub.imp (congrArg some) (congrArg some)
  | k + 1, hk => h.cons hne k hk

theorem EscapesPaired.esc_append {c : Config} (hc : c.BytesDistinct) (b : Byte) {ys : List Byte}
    (h : EscapesPaired c ys) : EscapesPaired c (esc c b ++ ys) := by
  obtain ⟨-, -, hSubEndEsc, -, hSubEscEsc, -⟩ := hc
  unfold esc
  split
  · exact h.cons_pair (.inl rfl) hSubEndEsc
  · split
    · exact h.cons_pair (.inr rfl) hSubEscEsc
    · next hb => exact h.cons hb

/-- Escaped bytes in front keep every ESC followed by a substitute (30_encoding.md R74, 40_codec.md R103). -/
theorem EscapesPaired.escaped_append {c : Config} (hc : c.BytesDistinct) (xs : List Byte) {ys : List Byte}
    (h : EscapesPaired c ys) : EscapesPaired c (escaped c xs ++ ys) := by
  induction xs with
  | nil => exact h
  | cons b rest ih =>
    rw [escaped, List.append_assoc]
    exact ih.esc_append hc b

/-- A wire frame is the escaped payload, with C = 1 the escaped CRC field, and END. -/
theorem wireFrame_eq_append (c : Config) (useCrc : Bool) (payload : List Byte) :
    ∃ field, wireFrame c useCrc payload = escaped c payload ++ (escaped c field ++ [c.pEnd]) := by
  cases useCrc with
  | false => exact ⟨[], by simp [wireFrame, escaped]⟩
  | true => exact ⟨crc16Be (crcFold 0x0000 payload), by simp [wireFrame]⟩

theorem wireFrame_count_pEnd {c : Config} (hc : c.BytesDistinct) (useCrc : Bool) (payload : List Byte) :
    (wireFrame c useCrc payload).count c.pEnd = 1 := by
  obtain ⟨field, hframe⟩ := wireFrame_eq_append c useCrc payload
  simp [hframe, List.count_eq_zero.mpr (not_pEnd_mem_escaped hc _)]

theorem wireFrame_getLast? (c : Config) (useCrc : Bool) (payload : List Byte) :
    (wireFrame c useCrc payload).getLast? = some c.pEnd := List.getLast?_concat

theorem escapesPaired_wireFrame {c : Config} (hc : c.BytesDistinct) (useCrc : Bool) (payload : List Byte) :
    EscapesPaired c (wireFrame c useCrc payload) := by
  have hnil : EscapesPaired c [] := nofun
  obtain ⟨field, hframe⟩ := wireFrame_eq_append c useCrc payload
  rw [hframe]
  exact ((hnil.cons hc.1).escaped_append hc field).escaped_append hc payload

theorem effectOf_sendInstr (useCrc : Bool) (payload : List Byte) :
    effectOf (sendInstr useCrc payload) = sendEffect useCrc payload := by
  cases useCrc <;> rfl

@[simp] theorem chunksWritten_cons_isReady (b : Bool) (events : List TransportEvent) :
    chunksWritten (.isReady b :: events) = chunksWritten events := rfl

/-- SEND with a ready transport adds the wire frame to the bytes sent (42_framer.md R131). -/
theorem sendEffect_wire (useCrc : Bool) (payload : List Byte) {s : State} (h : s.nextReady = true) :
    (sendEffect useCrc payload s).wire = s.wire ++ wireFrame s.cfg useCrc payload := by
  simp [sendEffect_ready useCrc payload h, State.wire, State.tx]

/-- Settles O36: the chunks SEND writes join to the frame, whose escaped part holds no END and only paired ESCs. -/
theorem sentFrameIsAWireFrame : Obligations.SentFrameIsAWireFrame := by
  rintro useCrc payload s ⟨hc, hbusy, hwf, hwrites⟩ hready
  refine ⟨sendEffect useCrc payload s, ?_, sendEffect_wire useCrc payload hready,
    wireFrame_count_pEnd hc.1 useCrc payload, wireFrame_getLast? s.cfg useCrc payload,
    escapesPaired_wireFrame hc.1 useCrc payload⟩
  rw [← effectOf_sendInstr]
  exact exec_of_admitted hc hbusy hwf hwrites

end Sys2Proof.Machine
end

section
/-! The codes of ERR and RXSTATE (30_encoding.md R70, R71). -/

namespace Sys2Proof.Machine

/-- Settles O49: each of the thirteen codes is the value of `code` at its constructor. -/
theorem outcomeAndStateCodes : Obligations.OutcomeAndStateCodes :=
  ⟨⟨rfl, rfl, rfl, rfl, rfl⟩, rfl, rfl, rfl, rfl, rfl, rfl, rfl, rfl⟩

end Sys2Proof.Machine
end

section
/-! The Frame Codec's escaping and its ENCODE (40_codec.md R81 to R85). -/

namespace Sys2Proof.Machine

/-- A command whose hypotheses hold has its effect. -/
theorem exec_of_takes {i : Instr} {s : State} (h : Takes i s) : exec i s = .next (effectOf i s) := by
  obtain ⟨hc, hbusy, hwf, hwrites⟩ := h
  exact exec_of_admitted hc hbusy hwf hwrites

theorem esc_pEnd (c : Config) : esc c c.pEnd = [c.pEsc, c.pSubEnd] := if_pos rfl

theorem esc_pEsc {c : Config} (hc : c.BytesDistinct) : esc c c.pEsc = [c.pEsc, c.pSubEsc] := by
  rw [esc, if_neg (Ne.symm hc.1), if_pos rfl]

theorem esc_ordinary {c : Config} {b : Byte} (hEnd : b ≠ c.pEnd) (hEsc : b ≠ c.pEsc) : esc c b = [b] := by
  rw [esc, if_neg hEnd, if_neg hEsc]

@[simp] theorem escaped_singleton (c : Config) (b : Byte) : escaped c [b] = esc c b := List.append_nil _

theorem escaped_append (c : Config) (xs ys : List Byte) : escaped c (xs ++ ys) = escaped c xs ++ escaped c ys := by
  induction xs with
  | nil => rfl
  | cons b rest ih => rw [List.cons_append, escaped, escaped, ih, List.append_assoc]

/-- Settles O22: `escaped` joins the escapes of its bytes, and an admitted configuration keeps END, ESC and the substitute
bytes apart. -/
theorem escapedReplacesSpecialBytes : Obligations.EscapedReplacesSpecialBytes := by
  intro c hc
  obtain ⟨-, hSubEndEnd, hSubEndEsc, hSubEscEnd, hSubEscEsc, -⟩ := hc.1
  simp only [escaped_singleton]
  exact ⟨rfl, escaped_append c, esc_pEnd c, esc_pEsc hc.1, esc_ordinary hSubEndEnd hSubEndEsc,
    esc_ordinary hSubEscEnd hSubEscEsc, fun b => esc_ordinary⟩

theorem encodeWrites_of_ne_nil (c : Config) (appendEnd : Bool) {raw : List Byte} (h : raw ≠ []) :
    encodeWrites c appendEnd raw = encodeChunks c raw ++ if appendEnd then [[c.pEnd]] else [] := if_neg h

theorem effectOf_encodeInstr (appendEnd : Bool) (raw : List Byte) :
    effectOf (encodeInstr appendEnd raw) = encodeEffect appendEnd raw := by
  cases appendEnd <;> rfl

theorem writesOf_encodeInstr (appendEnd : Bool) (raw : List Byte) (s : State) :
    writesOf (encodeInstr appendEnd raw) s = encodeWrites s.cfg appendEnd raw := by
  cases appendEnd <;> rfl

theorem encodeEffect_events (appendEnd : Bool) (raw : List Byte) (s : State) :
    (encodeEffect appendEnd raw s).events = s.events ++ (encodeWrites s.cfg appendEnd raw).map .write := rfl

/-- ENCODE of non-empty data adds its escaped bytes and, with E = 1, END to the bytes sent (40_codec.md R83). -/
theorem encodeEffect_wire (appendEnd : Bool) {raw : List Byte} (h : raw ≠ []) (s : State) :
    (encodeEffect appendEnd raw s).wire =
      s.wire ++ escaped s.cfg raw ++ if appendEnd then [s.cfg.pEnd] else [] := by
  simp only [State.wire, State.tx, encodeEffect_events, encodeWrites_of_ne_nil _ _ h, chunksWritten_append,
    chunksWritten_map_write, List.flatten_append, encodeChunks_flatten, List.append_assoc]
  cases appendEnd <;> rfl

/-- Settles O25: the effect is one `Write` per chunk and the write of COUNT, and empty data has no chunk; OUTBUF and every
other field are those of `s`. -/
theorem encodeWritesEscapedData : Obligations.EncodeWritesEscapedData := by
  intro appendEnd raw s htakes
  refine ⟨encodeEffect appendEnd raw s, ?_, ?_, fun hraw => ⟨?_, encodeEffect_wire appendEnd hraw s⟩, rfl, rfl, rfl, rfl,
    rfl, fun _ => rfl, rfl, rfl, ?_, rfl, rfl, rfl, rfl, rfl⟩
  · rw [← effectOf_encodeInstr]
    exact exec_of_takes htakes
  · rintro rfl
    rw [encodeEffect_nil, State.setCount_events]
  · rw [encodeEffect_events, encodeWrites_of_ne_nil _ _ hraw]
  · rw [writesOf_encodeInstr]
    rfl

end Sys2Proof.Machine
end

section
/-! DECODE: unescaping byte by byte, the outcome and what it writes (40_codec.md R91 to R98). -/

namespace Sys2Proof.Machine

theorem decodeOutcome_misread (outLen wireLen maxlen : Nat) :
    decodeOutcome true outLen wireLen maxlen = .errorEncoding := rfl

theorem decodeOutcome_tooLong {outLen maxlen : Nat} (wireLen : Nat) (h : maxlen < outLen) :
    decodeOutcome false outLen wireLen maxlen = .errorBuffer := if_pos h

theorem decodeOutcome_nothing {wireLen : Nat} (maxlen : Nat) (h : 0 < wireLen) :
    decodeOutcome false 0 wireLen maxlen = .errorEncoding := by
  simp [decodeOutcome, h]

theorem decodeOutcome_fits {outLen wireLen maxlen : Nat} (hfits : outLen ≤ maxlen) (h : outLen ≠ 0 ∨ wireLen = 0) :
    decodeOutcome false outLen wireLen maxlen = .noError := by
  have hsome : ¬ (outLen = 0 ∧ 0 < wireLen) := by omega
  simp [decodeOutcome, hfits, hsome]

/-- DECODE delivers bytes `p` that fit MAXLEN: the output on success, none on an error (40_codec.md R96, R97). -/
theorem decodeEffect_delivers (maxlen : Nat) (wire : List Byte) (s : State) {code : ErrCode}
    (hcode : decodeOutcome (unescape s.cfg wire).2 (unescape s.cfg wire).1.length wire.length maxlen = code) :
    ∃ p : List Byte, decodeEffect maxlen wire s = ((s.setErr code).fillOutbuf p maxlen).setCount p.length ∧
      p.length ≤ maxlen ∧ (code = .noError → p = (unescape s.cfg wire).1) ∧ (code ≠ .noError → p = []) := by
  by_cases hok : code = .noError
  · subst hok
    exact ⟨(unescape s.cfg wire).1, decodeEffect_success hcode, (decodeOutcome_noError hcode).2, fun _ => rfl,
      fun h => absurd rfl h⟩
  · exact ⟨[], decodeEffect_error hok hcode, Nat.zero_le _, fun h => absurd h hok, fun _ => rfl⟩

/-- Settles O26: ERR is the outcome, OUTBUF and COUNT are those of the bytes delivered, and no other field is written. -/
theorem decodeClassifiesAndWrites : Obligations.DecodeClassifiesAndWrites := by
  intro maxlen wire s htakes
  obtain ⟨p, heffect, hfits, hsuccess, herror⟩ := decodeEffect_delivers maxlen wire s rfl
  refine ⟨_, (exec_of_takes htakes).trans (congrArg _ heffect), ⟨fun hmisread => ?_, fun hmisread hlong => ?_,
    fun hmisread _ hout hwire => ?_, fun hmisread hlen hsome => ?_, fun hok => ?_, fun herr => ?_⟩,
    fun a ha => State.outbufByte_fillOutbuf_above _ p maxlen a hfits ha,
    rfl, rfl, rfl, rfl, rfl, rfl, rfl, rfl, rfl, rfl, rfl, rfl⟩
  · simp [hmisread, decodeOutcome_misread]
  · simp [hmisread, decodeOutcome_tooLong _ hlong]
  · simp [hmisread, hout, decodeOutcome_nothing _ (List.length_pos_iff.mpr hwire)]
  · simp only [ne_eq, ← List.length_eq_zero_iff] at hsome
    simp [hmisread, decodeOutcome_fits hlen hsome]
  · obtain rfl := hsuccess hok
    exact ⟨rfl, fun j hj => State.outbufByte_fillOutbuf_payload _ _ maxlen j hj⟩
  · obtain rfl := herror herr
    rfl

/-- A byte that is no ESC decodes to itself, also as the last byte. -/
theorem unescape_cons_of_ne {c : Config} {b : Byte} (hb : b ≠ c.pEsc) (wire : List Byte) :
    unescape c (b :: wire) = emitByte b false (unescape c wire) := by
  cases wire with
  | nil => simp [unescape, emitByte, hb]
  | cons n rest => simp [unescape, hb]

theorem unescape_malformed {c : Config} {x : Byte} (hSubEnd : x ≠ c.pSubEnd) (hSubEsc : x ≠ c.pSubEsc)
    (rest : List Byte) : unescape c (c.pEsc :: x :: rest) = (c.pEsc :: (unescape c rest).1, true) := by
  simp [unescape, emitByte, hSubEnd, hSubEsc]

theorem unescape_trailingEsc (c : Config) : unescape c [c.pEsc] = ([c.pEsc], true) := by
  simp [unescape]

/-- A wire that decodes without a misread ends between two escape units, so what follows it decodes as it does alone. -/
theorem unescape_append (c : Config) (w v : List Byte) (hw : (unescape c w).2 = false) :
    unescape c (w ++ v) = ((unescape c w).1 ++ (unescape c v).1, (unescape c v).2) := by
  fun_induction unescape c w with
  | case1 => rfl
  | case2 => cases hw
  | case3 b hb => rw [List.singleton_append, unescape_cons_of_ne hb]; simp [emitByte]
  | case4 rest ih => simp [unescape, emitByte, ih hw]
  | case5 rest hn ih => simp [unescape, emitByte, hn, ih hw]
  | case6 => cases hw
  | case7 b n rest hb ih => rw [List.cons_append, unescape_cons_of_ne hb, ih hw]; simp [emitByte]

theorem decode_of_misread {maxlen : Nat} {wire : List Byte} {s : State} (htakes : Takes (.decode maxlen wire) s)
    (hmisread : (unescape s.cfg wire).2 = true) :
    ∃ t, exec (.decode maxlen wire) s = .next t ∧ t.err = .errorEncoding ∧ t.count = 0 := by
  have hcode : decodeOutcome (unescape s.cfg wire).2 (unescape s.cfg wire).1.length wire.length maxlen =
      .errorEncoding := by rw [hmisread, decodeOutcome_misread]
  exact ⟨_, (exec_of_takes htakes).trans (congrArg _ (decodeEffect_error (by decide) hcode)), rfl, rfl⟩

/-- Settles O28: the misread of the malformed pair or of the lone ESC is the misread of the whole wire, since what stands
before it decodes without one. -/
theorem decodeRejectsMalformedEscapes : Obligations.DecodeRejectsMalformedEscapes := by
  intro maxlen w out rest x s hSubEnd hSubEsc hw
  have hclean : (unescape s.cfg w).2 = false := by rw [hw]
  refine ⟨unescape_malformed hSubEnd hSubEsc rest, unescape_trailingEsc s.cfg,
    fun htakes => decode_of_misread htakes ?_, fun htakes => decode_of_misread htakes ?_⟩
  · rw [unescape_append s.cfg w _ hclean, unescape_malformed hSubEnd hSubEsc]
  · rw [unescape_append s.cfg w _ hclean, unescape_trailingEsc]

end Sys2Proof.Machine
end

section
/-! The Checksum Engine: `crc_fold` as a left fold, its fixed point at zero, and the three CRC commands
(41_checksum.md R113, R115 to R117). -/

namespace Sys2Proof.Machine

/-- `crc_fold` takes the bytes in index order (41_checksum.md R113). -/
theorem crcFold_eq_foldl (c : Word16) (xs : List Byte) : crcFold c xs = xs.foldl crcStep c := by
  induction xs generalizing c with
  | nil => rfl
  | cons b rest ih => exact ih (crcStep c b)

theorem crcStep_zero_zero : crcStep 0x0000 0x00 = 0x0000 := by decide

/-- The zero register is blind to zero bytes (41_checksum.md R116). -/
theorem crcFold_zero_replicate_zero (k : Nat) : crcFold 0x0000 (List.replicate k 0x00) = 0x0000 := by
  induction k with
  | zero => rfl
  | succ k ih => rw [List.replicate_succ, crcFold, crcStep_zero_zero, ih]

/-- Settles O13: the effect of CRC_RESET is the one write of CRC. -/
theorem crcResetZeroesOnlyCrc : Obligations.CrcResetZeroesOnlyCrc :=
  ⟨(decode_eq_ok _ _).mpr ⟨rfl, rfl, rfl⟩, fun _ htakes => exec_of_takes htakes⟩

@[simp] theorem effectOf_crcUpdate_crc (data : List Byte) (s : State) :
    (effectOf (.crcUpdate data) s).crc = crcFold s.crc data := rfl

/-- Settles O14: the effect of CRC_UPDATE writes and returns `crcFold`, which is the left fold of `crcStep` and has zero as
its fixed point on zero bytes. -/
theorem crcUpdateFoldsSlice : Obligations.CrcUpdateFoldsSlice := by
  have hcmd : decodeCmd 0x02 = .ok .crcUpdate := rfl
  refine ⟨fun _ => (decode_eq_ok _ _).mpr ⟨hcmd, rfl, rfl⟩, fun s xs htakes => ?_,
    fun s k htakes hzero => ⟨_, exec_of_takes htakes, ?_⟩⟩
  · rw [← crcFold_eq_foldl]
    exact exec_of_takes htakes
  · rw [effectOf_crcUpdate_crc, hzero, crcFold_zero_replicate_zero]

/-- Settles O15: the effect of CRC_READ is the one reply. -/
theorem crcReadReturnsCrc : Obligations.CrcReadReturnsCrc :=
  ⟨(decode_eq_ok _ _).mpr ⟨rfl, rfl, rfl⟩, fun _ htakes => exec_of_takes htakes⟩

end Sys2Proof.Machine
end

section
/-! SEND, and the RECEIVEs that issue no read: each asks `IsReady()` once and completes in its step
(42_framer.md R131 to R135, R142, R143). -/

namespace Sys2Proof.Machine

theorem exec_sendInstr {useCrc : Bool} {payload : List Byte} {s : State} (h : Takes (sendInstr useCrc payload) s) :
    exec (sendInstr useCrc payload) s = .next (sendEffect useCrc payload s) := by
  rw [exec_of_takes h, effectOf_sendInstr]

theorem exec_receiveInstr {useCrc : Bool} {maxlen : Nat} {s : State} (h : Takes (receiveInstr useCrc maxlen) s) :
    exec (receiveInstr useCrc maxlen) s = .next (receiveEffect useCrc maxlen s) := by
  rw [exec_of_takes h, effectOf_receiveInstr]

theorem writesOf_sendInstr_ready (useCrc : Bool) (payload : List Byte) {s : State} (h : s.nextReady = true) :
    writesOf (sendInstr useCrc payload) s = frameChunks s.cfg useCrc payload := by
  cases useCrc <;> exact if_pos h

theorem askReady_events_of_nextReady {s : State} {answer : Bool} (h : s.nextReady = answer) :
    s.askReady.events = s.events ++ [.isReady answer] := by
  rw [State.askReady_events, h]

/-- The writes of a frame are those of the payload, with C = 1 those of the CRC field, and the one of END
(42_framer.md R131, R134). -/
theorem frameChunks_map_write (c : Config) (useCrc : Bool) (payload : List Byte) :
    (frameChunks c useCrc payload).map TransportEvent.write = (encodeChunks c payload).map .write ++
      (if useCrc then (encodeChunks c (crc16Be (crcFold 0x0000 payload))).map .write else []) ++
      [.write [c.pEnd]] := by
  cases useCrc <;> simp [frameChunks]

/-- SEND with a ready transport asks, then writes the frame (42_framer.md R131). -/
theorem sendEffect_events (useCrc : Bool) (payload : List Byte) {s : State} (h : s.nextReady = true) :
    (sendEffect useCrc payload s).events =
      s.events ++ [.isReady true] ++ (frameChunks s.cfg useCrc payload).map .write := by
  rw [sendEffect_ready useCrc payload h, ← askReady_events_of_nextReady h]
  rfl

/-- Settles O35: the events are the question and one `Write` per chunk of the frame; the other writes of `sendEffect_ready`
are CRC, COUNT and ERR. -/
theorem sendWritesFrame : Obligations.SendWritesFrame := by
  intro useCrc payload s htakes hready
  have hevents := sendEffect_events useCrc payload hready
  rw [sendEffect_ready useCrc payload hready, frameChunks_map_write] at hevents
  rw [exec_sendInstr htakes, sendEffect_ready useCrc payload hready, writesOf_sendInstr_ready useCrc payload hready]
  exact ⟨_, rfl, rfl, by simpa only [List.append_assoc] using hevents, rfl, rfl, rfl, rfl, rfl, rfl, fun _ => rfl, rfl,
    rfl, rfl, rfl, rfl, rfl⟩

/-- Settles O34: SEND of a transport that is not ready asks, and writes COUNT and ERR only. -/
theorem sendNotReadyWritesNothing : Obligations.SendNotReadyWritesNothing := by
  intro useCrc payload s htakes hready
  rw [exec_sendInstr htakes, sendEffect_notReady useCrc payload hready]
  exact ⟨_, rfl, askReady_events_of_nextReady hready, rfl, rfl, rfl, rfl, rfl, fun _ => rfl, rfl, rfl,
    rfl, rfl, rfl, rfl, rfl⟩

/-- Settles O38: RECEIVE of a transport that is not ready asks, and writes ERR, COUNT and RXSTATE only; BUSY is 0 as it was
when the command was taken. -/
theorem receiveNotReady : Obligations.ReceiveNotReady := by
  intro useCrc maxlen s htakes hready
  rw [exec_receiveInstr htakes, receiveEffect_notReady useCrc maxlen hready]
  obtain ⟨-, hbusy, -, -⟩ := htakes
  exact ⟨_, rfl, askReady_events_of_nextReady hready, rfl, fun _ => rfl, rfl, rfl, rfl, hbusy, rfl, rfl,
    rfl, rfl, rfl, rfl, rfl⟩

/-- Settles O39: RECEIVE with MAXLEN = 0 asks, and writes ERR, COUNT and RXSTATE only. -/
theorem receiveWithNoRoom : Obligations.ReceiveWithNoRoom := by
  intro useCrc s htakes hready
  rw [exec_receiveInstr htakes, receiveEffect_zero useCrc hready]
  obtain ⟨-, hbusy, -, -⟩ := htakes
  exact ⟨_, rfl, askReady_events_of_nextReady hready, rfl, fun _ => rfl, rfl, rfl, rfl, hbusy, rfl, rfl,
    rfl, rfl, rfl, rfl, rfl⟩

end Sys2Proof.Machine
end

section
/-! The completion step of a RECEIVE whose frame decodes without a misread: the CRC check and the delivery
(42_framer.md R145, R147, R148). -/

namespace Sys2Proof.Machine

theorem answerAllowed_of_allowedAnswer {s : State} {p : PendingRead} {a : ReadAnswer} (h : AllowedAnswer s p a) :
    answerAllowed s.cfg.pEnd (p.maxlen - 1) a = true := by
  cases a with
  | found bs => exact answerAllowed_found.mpr (h bs rfl)
  | timeout => rfl
  | overflow => rfl

/-- The step on an admitted answer to the awaited read is the completion step. -/
theorem AnsweredBy.step_eq {s : State} {p : PendingRead} {a : ReadAnswer} (h : AnsweredBy s p a)
    (ha : AllowedAnswer s p a) : step s = .next (completeRead p a (s.withInputs s.inputs.tail)) := by
  obtain ⟨⟨hinv, hp⟩, rest, hi⟩ := h
  rw [step_of_inputs hi, hi]
  exact acceptAnswer_pending (s := s.withInputs rest) hinv.config hp (answerAllowed_of_allowedAnswer ha)

theorem AllowedBytes.allowedAnswer {s : State} {p : PendingRead} {bs : List Byte} (h : AllowedBytes s p bs) :
    AllowedAnswer s p (.found bs) := by
  rintro _ ⟨⟩
  exact h

/-- The empty frame is within every read bound. -/
theorem allowedBytes_nil (s : State) (p : PendingRead) : AllowedBytes s p [] := ⟨Nat.zero_le _, List.not_mem_nil⟩

/-! ## How a RECEIVE ends -/

/-- What the completion step does before it finishes, an optional write of CRC included, is no more than it may. -/
theorem completionFrame_endRead (s : State) (crc : Word16) :
    CompletionFrame s ((s.withInputs s.inputs.tail).endRead.setCrc crc) :=
  ⟨rfl, rfl, rfl, rfl, rfl, rfl, rfl, rfl, rfl, rfl⟩

theorem endsInError_finishErr (s : State) (p : PendingRead) (crc : Word16) (code : ErrCode) (rx : RxState) :
    EndsInError s (((s.withInputs s.inputs.tail).endRead.setCrc crc).finishErr code rx p.maxlen) p code rx :=
  ⟨rfl, rfl, rfl, fun a ha => State.outbufByte_fillOutbuf_above _ [] p.maxlen a (Nat.zero_le _) ha,
    completionFrame_endRead s crc⟩

/-- A payload that fits MAXLEN is delivered whole, and OUTBUF is written no further than MAXLEN (42_framer.md R148). -/
theorem delivers_finishDelivered (s : State) {p : PendingRead} (crc : Word16) {m : List Byte}
    (hm : m.length ≤ p.maxlen) :
    Delivers s (((s.withInputs s.inputs.tail).endRead.setCrc crc).finishDelivered m p.maxlen) p m :=
  ⟨rfl, rfl, rfl, fun j hj => State.outbufByte_fillOutbuf_payload _ m p.maxlen j hj,
    fun a ha => State.outbufByte_fillOutbuf_above _ m p.maxlen a hm ha, completionFrame_endRead s crc⟩

/-! ## The CRC field -/

/-- The field is read high byte first (42_framer.md R147). -/
theorem joinBe_toNat (hi lo : Byte) : (joinBe hi lo).toNat = 256 * hi.toNat + lo.toNat := by
  have hlo : lo.toNat < 2 ^ 8 := lo.isLt
  have hhi : hi.toNat < 2 ^ 8 := hi.isLt
  have hshift : hi.toNat <<< 8 < 2 ^ 16 := by rw [Nat.shiftLeft_eq]; omega
  simp only [joinBe, BitVec.toNat_or, BitVec.toNat_shiftLeft, BitVec.toNat_setWidth]
  rw [Nat.mod_eq_of_lt (by omega : hi.toNat < 2 ^ 16), Nat.mod_eq_of_lt (by omega : lo.toNat < 2 ^ 16),
    Nat.mod_eq_of_lt hshift, ← Nat.shiftLeft_add_eq_or_of_lt hlo, Nat.shiftLeft_eq]
  omega

theorem eq_joinBe_iff (crc : Word16) (hi lo : Byte) : crc = joinBe hi lo ↔ crc.toNat = 256 * hi.toNat + lo.toNat := by
  rw [← BitVec.toNat_inj, joinBe_toNat]

theorem splitCrcField_append (payload : List Byte) (hi lo : Byte) :
    splitCrcField (payload ++ [hi, lo]) = some (payload, joinBe hi lo) := by
  simp [splitCrcField]

theorem splitCrcField_short {out : List Byte} (h : out.length < 2) : splitCrcField out = none := if_pos h

/-! ## `checkFrame`, case by case -/

variable {p : PendingRead}

theorem checkFrame_withoutCrc (h : p.useCrc = false) (out : List Byte) (s : State) :
    checkFrame p out s = s.finishDelivered out p.maxlen := by
  simp [checkFrame, h]

theorem checkFrame_short (h : p.useCrc = true) {out : List Byte} (hout : out.length < 2) (s : State) :
    checkFrame p out s = s.finishErr .errorEncoding .checksumMismatch p.maxlen := by
  simp [checkFrame, h, splitCrcField_short hout]

theorem checkFrame_field (h : p.useCrc = true) (payload : List Byte) (hi lo : Byte) (s : State) :
    checkFrame p (payload ++ [hi, lo]) s =
      if crcFold 0x0000 payload = joinBe hi lo then
        (s.setCrc (crcFold 0x0000 payload)).finishDelivered payload p.maxlen
      else (s.setCrc (crcFold 0x0000 payload)).finishErr .errorEncoding .checksumMismatch p.maxlen := by
  simp [checkFrame, h, splitCrcField_append]

/-! ## Frames without a misread -/

/-- Unescaping never lengthens (40_codec.md R104). -/
theorem unescape_length_le (c : Config) (wire : List Byte) : (unescape c wire).1.length ≤ wire.length := by
  fun_induction unescape c wire with
  | case1 | case2 | case3 => simp
  | case4 rest ih | case5 rest _ ih | case6 _ rest _ _ ih | case7 _ _ rest _ ih =>
    simp only [emitByte, List.length_cons] at ih ⊢
    omega

theorem completeRead_of_clean {s : State} {bs out : List Byte} (hmessage : bs ≠ [] ∨ s.cfg.emptyFrame = .asEmptyMessage)
    (hclean : unescape s.cfg bs = (out, false)) : completeRead p (.found bs) s = checkFrame p out s.endRead := by
  have hno : ¬ (bs = [] ∧ s.cfg.emptyFrame = .asTimeout) := by
    rintro ⟨hbs, hpolicy⟩
    rcases hmessage with h | h
    · exact h hbs
    · rw [hpolicy] at h; cases h
  simp [completeRead, hno, hclean]

theorem completeRead_emptyTimeout {s : State} (h : s.cfg.emptyFrame = .asTimeout) :
    completeRead p (.found []) s = s.endRead.finishErr .errorTimeout .timeout p.maxlen := by
  simp [completeRead, h]

/-- Settles O44: the step is `checkFrame` of the decoded frame, which is no longer than the read bound; where it writes no
CRC, CRC still is what the issue step left, 0x0000 by the invariant. -/
theorem receiveChecksAndDelivers : Obligations.ReceiveChecksAndDelivers := by
  intro s p bs out hanswered hallowed hmessage hclean
  have hstep := hanswered.step_eq hallowed.allowedAnswer
  rw [completeRead_of_clean (s := s.withInputs s.inputs.tail) hmessage hclean] at hstep
  have hfits : out.length ≤ p.maxlen := by
    have hlen := unescape_length_le s.cfg bs
    rw [hclean] at hlen
    exact hlen.trans (hallowed.1.trans (Nat.sub_le _ _))
  obtain ⟨⟨hinv, hpending⟩, -⟩ := hanswered
  obtain ⟨-, -, hcrc, -, -⟩ := hinv.pending_read p hpending
  refine ⟨_, hstep, ?_, ?_, ?_⟩
  · rintro huse payload hi lo rfl
    rw [checkFrame_field huse, ne_eq, ← eq_joinBe_iff]
    have hpayload : payload.length ≤ p.maxlen := by
      rw [List.length_append] at hfits
      omega
    by_cases hfield : crcFold 0x0000 payload = joinBe hi lo
    · rw [if_pos hfield]
      exact ⟨rfl, fun _ => delivers_finishDelivered s _ hpayload, fun hne => absurd hfield hne⟩
    · rw [if_neg hfield]
      exact ⟨rfl, fun heq => absurd heq hfield, fun _ => endsInError_finishErr s p _ _ _⟩
  · intro huse hshort
    rw [checkFrame_short huse hshort]
    exact ⟨hcrc, endsInError_finishErr s p s.crc _ _⟩
  · intro huse
    rw [checkFrame_withoutCrc huse]
    exact ⟨hcrc, delivers_finishDelivered s s.crc hfits⟩

/-- Settles O42: under AS_TIMEOUT the step ends in `finishErr`; under AS_EMPTY_MESSAGE the empty frame is one that decodes
without a misread, to nothing, which with C = 1 is too short for a CRC field. -/
theorem emptyFrameFollowsPolicy : Obligations.EmptyFrameFollowsPolicy := by
  intro s p hanswered
  have hallowed := allowedBytes_nil s p
  cases hpolicy : s.cfg.emptyFrame with
  | asTimeout =>
    have hstep := hanswered.step_eq hallowed.allowedAnswer
    rw [completeRead_emptyTimeout (s := s.withInputs s.inputs.tail) hpolicy] at hstep
    exact ⟨_, hstep, fun _ => endsInError_finishErr s p s.crc _ _, nofun, nofun⟩
  | asEmptyMessage =>
    obtain ⟨t, hstep, -, hshort, hdelivers⟩ :=
      receiveChecksAndDelivers s p [] [] hanswered hallowed (.inr hpolicy) rfl
    exact ⟨t, hstep, nofun, fun _ huse => (hdelivers huse).2, fun _ huse => (hshort huse Nat.zero_lt_two).2⟩

end Sys2Proof.Machine
end

section
/-! CMD bytes (30_encoding.md R61, R69): the fields fix the byte, so the decoder and the encoder are inverse to each
other, and a command record steps to its command. -/

namespace Sys2Proof

/-- Bit `k` of a CMD byte as a number. -/
theorem getLsbD_toNat (cmd : Byte) (k : Nat) : (cmd.getLsbD k).toNat = cmd.toNat / 2 ^ k % 2 := by
  rw [BitVec.getLsbD, Nat.toNat_testBit]

/-- Two CMD bytes with the same fields are the same byte (30_encoding.md R61). -/
theorem eq_of_hasFields {cmd cmd' : Byte} {op : Nat} {c e : Bool} (h : Machine.HasFields cmd op c e)
    (h' : Machine.HasFields cmd' op c e) : cmd = cmd' := by
  obtain ⟨hop, hc, he, hz⟩ := h
  obtain ⟨hop', hc', he', hz'⟩ := h'
  have hbit (k : Nat) (hk : cmd.getLsbD k = cmd'.getLsbD k) : cmd.toNat / 2 ^ k % 2 = cmd'.toNat / 2 ^ k % 2 := by
    rw [← getLsbD_toNat, hk, getLsbD_toNat]
  have hbit4 := hbit 4 (hc.trans hc'.symm)
  have hbit5 := hbit 5 (he.trans he'.symm)
  exact BitVec.eq_of_toNat_eq (by omega)

/-- The one CMD byte that selects an operation is the one the encoder gives it (30_encoding.md R69). -/
theorem decodeCmd_eq_ok_iff_encodeCmd (cmd : Byte) (op : Op) : decodeCmd cmd = .ok op ↔ cmd = encodeCmd op := by
  have hencode : decodeCmd (encodeCmd op) = .ok op := (Laws.CmdByteSelects.of_op op).2
  constructor
  · intro h
    exact eq_of_hasFields ((decodeCmd_eq_ok cmd op).mp h) ((decodeCmd_eq_ok _ op).mp hencode)
  · rintro rfl
    exact hencode

/-- Settles O3: a record decodes to a command exactly when CMD selects its operation and the operands are its operands,
that is, when all three fields are those of its encoding. -/
theorem decodeAndEncodeAgree : Obligations.DecodeAndEncodeAgree := by
  intro i r
  obtain ⟨cmd, maxlen, data⟩ := r
  rw [decode_eq_ok, decodeCmd_eq_ok_iff_encodeCmd, encode, Command.mk.injEq]

theorem decode_encode (i : Instr) : decode (encode i) = .ok i := (decodeAndEncodeAgree i _).mpr rfl

/-- Settles O2: a byte selects an operation exactly when it is the CMD byte of one, and the ten CMD bytes are those of
the list. -/
theorem exactlyTenCmdValuesSelect : Obligations.ExactlyTenCmdValuesSelect := by
  refine ⟨fun cmd => ?_, rfl, rfl, rfl, rfl, rfl, rfl, rfl, rfl, rfl, rfl⟩
  simp only [decodeCmd_eq_ok_iff_encodeCmd]
  constructor
  · rintro ⟨op, rfl⟩
    rcases op with _ | _ | _ | (_ | _) | _ | (_ | _) | (_ | _) <;> decide
  · intro h
    simp only [List.mem_cons, List.not_mem_nil, or_false] at h
    rcases h with rfl | rfl | rfl | rfl | rfl | rfl | rfl | rfl | rfl | rfl
    exacts [⟨.crcReset, rfl⟩, ⟨.crcUpdate, rfl⟩, ⟨.crcRead, rfl⟩, ⟨.encode false, rfl⟩, ⟨.encode true, rfl⟩,
      ⟨.decode, rfl⟩, ⟨.send false, rfl⟩, ⟨.send true, rfl⟩, ⟨.receive false, rfl⟩, ⟨.receive true, rfl⟩]

/-- Settles O4: each word is a literal, and the decoder computes. -/
theorem tableWordsDecode : Obligations.TableWordsDecode := ⟨rfl, rfl, rfl, rfl, rfl, rfl, rfl, rfl⟩

end Sys2Proof

namespace Sys2Proof.Machine

theorem issueCommand_of_decode {r : Command} {i : Instr} (h : decode r = .ok i) (s : State) :
    issueCommand r s = exec i s := by
  rw [issueCommand, h]

/-- Settles O5: the step accepts the record, and a record that decodes is issued as its command. -/
theorem stepRunsDecodedCommand : Obligations.StepRunsDecodedCommand := by
  intro s r i rest hinputs hdecode
  exact (step_of_inputs hinputs).trans (issueCommand_of_decode hdecode _)

/-- A command of a table word is what the decoder reads from the word's record. -/
theorem decode_of_decodeTableWord {nbits w : Nat} {i : Instr} (h : decodeTableWord nbits w = some i) :
    decode (commandOfWord nbits w) = .ok i := by
  unfold decodeTableWord at h
  split at h
  · revert h
    cases decode (commandOfWord nbits w) <;> simp [Except.toOption]
  · cases h

/-- Settles O6: the record of the word is the next input, and taking it gives `s` back. -/
theorem fetchWordRunsNext : Obligations.FetchWordRunsNext := by
  intro s nbits w i h
  exact stepRunsDecodedCommand (s.withFetchWord nbits w) _ i s.inputs rfl (decode_of_decodeTableWord h)

/-- While BUSY = 1 a record is refused whether it decodes or not (70_reset_and_hazards.md R194). -/
theorem issueCommand_busy {s : State} (hc : s.cfg.WellFormed) (hb : s.busy = true) (r : Command) :
    issueCommand r s = .refused .busyCommand := by
  unfold issueCommand
  split
  · next i _ => rw [exec_eq_takeCommand, takeCommand_busy hc hb]
  · exact takeCommand_busy hc hb

/-- Settles O8: the step on a command record is `issueCommand`, which refuses while BUSY = 1. -/
theorem busyCoreRefusesCommands : Obligations.BusyCoreRefusesCommands := by
  intro s r rest hc hb hinputs
  exact (step_of_inputs hinputs).trans (issueCommand_busy (s := s.withInputs rest) hc hb r)

theorem hi8_toNat (c : Word16) : (hi8 c).toNat = c.toNat / 256 := by
  have hlt := c.isLt
  simp only [hi8, BitVec.extractLsb'_toNat, Nat.shiftRight_eq_div_pow]
  omega

theorem lo8_toNat (c : Word16) : (lo8 c).toNat = c.toNat % 256 := by
  simp [lo8, BitVec.extractLsb'_toNat]

theorem joinBe_hi8_lo8 (c : Word16) : joinBe (hi8 c) (lo8 c) = c := by
  refine Eq.symm ((eq_joinBe_iff c _ _).mpr ?_)
  rw [hi8_toNat, lo8_toNat, Nat.div_add_mod]

/-- Settles O37: the two bytes are the quotient and the remainder by 256, which `joinBe` puts together again. -/
theorem crcFieldIsBigEndian : Obligations.CrcFieldIsBigEndian := by
  intro c
  rw [← hi8_toNat, ← lo8_toNat, BitVec.ofNat_toNat, BitVec.ofNat_toNat, BitVec.setWidth_eq, BitVec.setWidth_eq]
  exact ⟨rfl, joinBe_hi8_lo8 c⟩

theorem readOutbuf_idle {s : State} (hc : s.cfg.WellFormed) (hb : s.busy = false) {addr : Nat}
    (h : addr < s.cfg.bufBytes) : readOutbuf addr s = .next (s.reply (.outbuf addr (s.outbufByte addr))) := by
  rw [readOutbuf, withConfig_of_wellFormed hc, if_pos h, hb]
  rfl

theorem readOutbuf_outside {s : State} (hc : s.cfg.WellFormed) {addr : Nat} (h : s.cfg.bufBytes ≤ addr) :
    readOutbuf addr s = .fault (.outbufAddress addr) := by
  rw [readOutbuf, withConfig_of_wellFormed hc, if_neg (Nat.not_lt.mpr h)]

/-- Settles O51: the step is `readOutbuf` of the state with the input taken, whose only write is the reply. -/
theorem outbufIsReadByAddress : Obligations.OutbufIsReadByAddress := by
  intro s addr rest hc hb hinputs
  have hstep : step s = readOutbuf addr (s.withInputs rest) := step_of_inputs hinputs
  rw [hstep]
  exact ⟨readOutbuf_idle (s := s.withInputs rest) hc hb, readOutbuf_outside (s := s.withInputs rest) hc⟩

end Sys2Proof.Machine
end

section
/-! Unescaping and escaping are inverse to each other (40_codec.md R101, R104, R105), and what the escaped form of a
payload looks like on the wire (R102, R103). -/

namespace Sys2Proof.Machine

/-- The escape unit of a byte decodes to the byte, whatever follows it (40_codec.md R81, R91). -/
theorem unescape_esc_append {c : Config} (hc : c.BytesDistinct) (b : Byte) (wire : List Byte) :
    unescape c (esc c b ++ wire) = emitByte b false (unescape c wire) := by
  obtain ⟨-, -, -, -, -, hSubs⟩ := hc
  unfold esc
  split
  · next hEnd => simp [unescape, hEnd]
  · split
    · next hEsc => simp [unescape, hEsc, hSubs.symm]
    · next hEsc => exact unescape_cons_of_ne hEsc wire

/-- Unescaping inverts escaping (40_codec.md R101). -/
theorem unescape_escaped {c : Config} (hc : c.BytesDistinct) (p : List Byte) :
    unescape c (escaped c p) = (p, false) := by
  induction p with
  | nil => rfl
  | cons b rest ih => rw [escaped, unescape_esc_append hc, ih]; rfl

/-- A wire without END that decodes without a misread is the escaped form of what it decodes to (40_codec.md R105). -/
theorem escaped_unescape {c : Config} (hc : c.BytesDistinct) {w : List Byte} (hEnd : c.pEnd ∉ w)
    (hclean : (unescape c w).2 = false) : escaped c (unescape c w).1 = w := by
  fun_induction unescape c w with
  | case1 => rfl
  | case2 => cases hclean
  | case3 b hb =>
    rw [escaped_singleton, esc_ordinary (fun h => hEnd (by simp [h])) hb]
  | case4 rest ih =>
    simp only [List.mem_cons, not_or] at hEnd
    simp [emitByte, escaped, esc_pEnd, ih hEnd.2.2 hclean]
  | case5 rest _ ih =>
    simp only [List.mem_cons, not_or] at hEnd
    simp [emitByte, escaped, esc_pEsc hc, ih hEnd.2.2 hclean]
  | case6 => cases hclean
  | case7 b n rest hb ih =>
    obtain ⟨hne, hrest⟩ := not_or.mp (mt List.mem_cons.mpr hEnd)
    simp [emitByte, escaped, esc_ordinary (Ne.symm hne) hb, ih hrest hclean]

/-- Settles O33: `unescape_escaped` one way, `escaped_unescape` the other. -/
theorem wiresAreCanonical : Obligations.WiresAreCanonical := by
  intro c w hc hEnd out
  constructor
  · intro hw
    have hback := escaped_unescape hc.1 hEnd (congrArg Prod.snd hw)
    rw [hw] at hback
    exact hback.symm
  · rintro rfl
    exact unescape_escaped hc.1 out

/-- Settles O29: the wire decodes to `p` without a misread, and `p` fits, so DECODE succeeds; `p` is empty only where the
wire is. -/
theorem decodeInvertsEscaping : Obligations.DecodeInvertsEscaping := by
  intro maxlen p s htakes hfits
  obtain ⟨t, hexec, ⟨-, -, -, hsuccess, hwritten, -⟩, -⟩ := decodeClassifiesAndWrites maxlen _ s htakes
  rw [unescape_escaped htakes.1.1] at hsuccess hwritten
  have hsome : p ≠ [] ∨ escaped s.cfg p = [] := by
    by_cases hp : p = []
    · exact .inr (by rw [hp]; rfl)
    · exact .inl hp
  have herr := hsuccess rfl hfits hsome
  exact ⟨t, hexec, herr, hwritten herr⟩

/-- Every escape unit emits a byte, a misread one too (40_codec.md R91). -/
theorem unescape_ne_nil (c : Config) {wire : List Byte} (h : wire ≠ []) : (unescape c wire).1 ≠ [] := by
  fun_cases unescape c wire with
  | case1 => exact absurd rfl h
  | case2 | case3 | case4 | case5 | case6 | case7 => exact List.cons_ne_nil _ _

/-- Settles O27: the first escape unit of the wire emits a byte. -/
theorem nonEmptyWireDecodesToSomething : Obligations.NonEmptyWireDecodesToSomething :=
  fun c _ h => unescape_ne_nil c h

/-- Settles O31: the escaped bytes pair their ESCs in front of any bytes that do, so in front of none. -/
theorem escapesAreNeverSplit : Obligations.EscapesAreNeverSplit := by
  intro c p hc
  have hnil : EscapesPaired c [] := nofun
  simpa using hnil.escaped_append hc.1 p

/-- Settles O30: END stands in no escaped bytes, and ENCODE.E of non-empty data adds the escaped bytes and END. -/
theorem encodeLeaksNoTerminator : Obligations.EncodeLeaksNoTerminator := by
  intro c p hc
  have hno := not_pEnd_mem_escaped hc.1 p
  refine ⟨hno, ?_⟩
  rintro s rfl hp htakes
  refine ⟨encodeEffect true p s, escaped s.cfg p ++ [s.cfg.pEnd], exec_of_takes htakes, ?_, ?_, List.getLast?_concat⟩
  · rw [encodeEffect_wire true hp, List.append_assoc]
    rfl
  · simp [List.count_eq_zero.mpr hno]

/-- A special byte takes two bytes on the wire, every other byte one (40_codec.md R81). -/
theorem esc_length (c : Config) (b : Byte) : (esc c b).length = if Special c b then 2 else 1 := by
  unfold esc
  split
  · next h => rw [if_pos (.inl h)]; rfl
  · next hEnd =>
    split
    · next h => rw [if_pos (.inr h)]; rfl
    · next hEsc => rw [if_neg (not_or.mpr ⟨hEnd, hEsc⟩)]; rfl

theorem escaped_length (c : Config) (p : List Byte) :
    (escaped c p).length = p.length + (p.filter fun b => decide (Special c b)).length := by
  induction p with
  | nil => rfl
  | cons b rest ih =>
    rw [escaped, List.length_append, esc_length, ih, List.filter_cons]
    by_cases hb : Special c b
    · rw [if_pos hb, if_pos (decide_eq_true hb), List.length_cons, List.length_cons]
      omega
    · rw [if_neg hb, if_neg (mt of_decide_eq_true hb), List.length_cons]
      omega

/-- Settles O32: the special bytes of a payload are among its bytes, and every escape unit emits one byte for one or two. -/
theorem codecLengthLaws : Obligations.CodecLengthLaws := by
  intro c p w
  have hspecial := List.length_filter_le (fun b => decide (Special c b)) p
  have hlength := escaped_length c p
  exact ⟨hlength, by omega, by omega, unescape_length_le c w⟩

end Sys2Proof.Machine
end

section
/-! The chunks of ENCODE (40_codec.md R82): runs without special bytes and escape pairs, each special byte a pair of its
own. -/

namespace Sys2Proof.Machine

/-- Ordinary bytes join the pending run (40_codec.md R82). -/
theorem encodeChunksFrom_ordinary {c : Config} {xs : List Byte} (hxs : ∀ x ∈ xs, ¬ Special c x) (run raw : List Byte) :
    encodeChunksFrom c run (xs ++ raw) = encodeChunksFrom c (run ++ xs) raw := by
  induction xs generalizing run with
  | nil => simp
  | cons x xs ih =>
    obtain ⟨hx, hrest⟩ := List.forall_mem_cons.mp hxs
    rw [List.cons_append, encodeChunksFrom, if_neg hx, ih hrest, List.append_assoc, List.singleton_append]

theorem encodeChunksFrom_special {c : Config} {b : Byte} (hb : Special c b) (run rest : List Byte) :
    encodeChunksFrom c run (b :: rest) = flushRun run ++ esc c b :: encodeChunksFrom c [] rest := by
  rw [encodeChunksFrom, if_pos hb, List.append_assoc, List.singleton_append]

/-- Settles O23: the ordinary bytes of `run` become the pending run, which the end or the special byte flushes. -/
theorem encodeChunksScansRuns : Obligations.EncodeChunksScansRuns := by
  intro c run hrun
  have hscan (raw : List Byte) : encodeChunks c (run ++ raw) = encodeChunksFrom c run raw :=
    encodeChunksFrom_ordinary hrun [] raw
  refine ⟨?_, fun b rest hb => ?_⟩
  · have hend := hscan []
    rw [List.append_nil] at hend
    exact hend
  · rw [hscan, encodeChunksFrom, if_pos hb]
    rfl

/-- The two escape pairs (30_encoding.md R72). -/
def IsEscapePair (c : Config) (ch : List Byte) : Prop := ch = [c.pEsc, c.pSubEnd] ∨ ch = [c.pEsc, c.pSubEsc]

/-- What a chunk of ENCODE can be: an escape pair, or a non-empty run without special bytes (40_codec.md R82). -/
def IsChunk (c : Config) (ch : List Byte) : Prop := ch ≠ [] ∧ (IsEscapePair c ch ∨ ∀ x ∈ ch, ¬ Special c x)

theorem isEscapePair_esc {c : Config} {b : Byte} (hb : Special c b) : IsEscapePair c (esc c b) := by
  unfold esc
  split
  · exact .inl rfl
  · next hEnd => rw [if_pos (hb.resolve_left hEnd)]; exact .inr rfl

theorem IsEscapePair.isChunk {c : Config} {ch : List Byte} (h : IsEscapePair c ch) : IsChunk c ch := by
  refine ⟨?_, .inl h⟩
  rintro rfl
  rcases h with h | h <;> cases h

theorem isChunk_of_mem_flushRun {c : Config} {run : List Byte} (hrun : ∀ x ∈ run, ¬ Special c x) {ch : List Byte}
    (h : ch ∈ flushRun run) : IsChunk c ch := by
  unfold flushRun at h
  split at h
  · cases h
  · next hne =>
    obtain rfl := List.mem_singleton.mp h
    exact ⟨hne, .inr hrun⟩

/-- An ordinary byte at the end of a run without special bytes. -/
theorem ordinary_concat {c : Config} {run : List Byte} (hrun : ∀ x ∈ run, ¬ Special c x) {b : Byte}
    (hb : ¬ Special c b) : ∀ x ∈ run ++ [b], ¬ Special c x :=
  List.forall_mem_append.mpr ⟨hrun, List.forall_mem_singleton.mpr hb⟩

theorem isChunk_of_mem_encodeChunksFrom {c : Config} {run : List Byte} (hrun : ∀ x ∈ run, ¬ Special c x)
    (raw : List Byte) : ∀ ch ∈ encodeChunksFrom c run raw, IsChunk c ch := by
  induction raw generalizing run with
  | nil => exact fun ch h => isChunk_of_mem_flushRun hrun h
  | cons b rest ih =>
    by_cases hb : Special c b
    · intro ch h
      rw [encodeChunksFrom_special hb, List.mem_append, List.mem_cons] at h
      rcases h with h | rfl | h
      · exact isChunk_of_mem_flushRun hrun h
      · exact (isEscapePair_esc hb).isChunk
      · exact ih (run := []) nofun ch h
    · rw [encodeChunksFrom, if_neg hb]
      exact ih (ordinary_concat hrun hb)

/-- Every chunk of `encode_chunks` is one of R82. -/
theorem isChunk_of_mem_encodeChunks {c : Config} {raw ch : List Byte} (h : ch ∈ encodeChunks c raw) : IsChunk c ch :=
  isChunk_of_mem_encodeChunksFrom (run := []) nofun raw ch h

/-- Two runs never stand side by side: a run ends at a special byte, whose pair follows it (40_codec.md R82). -/
theorem encodeChunksFrom_isChain (c : Config) (run raw : List Byte) :
    (encodeChunksFrom c run raw).IsChain fun ch ch' => IsEscapePair c ch ∨ IsEscapePair c ch' := by
  induction raw generalizing run with
  | nil => unfold encodeChunksFrom flushRun; split <;> simp
  | cons b rest ih =>
    by_cases hb : Special c b
    · have hpair := isEscapePair_esc hb
      have hchain : (esc c b :: encodeChunksFrom c [] rest).IsChain fun ch ch' =>
          IsEscapePair c ch ∨ IsEscapePair c ch' := (ih []).cons fun _ _ => .inl hpair
      rw [encodeChunksFrom_special hb, flushRun]
      split
      · exact hchain
      · exact hchain.cons fun ch h => by cases h; exact .inr hpair
    · rw [encodeChunksFrom, if_neg hb]
      exact ih _

/-- Settles O24: the scan loses no byte, flushes chunks of the two kinds only, and a pair after each run but the last. -/
theorem chunksJoinToEscapedBytes : Obligations.ChunksJoinToEscapedBytes := by
  intro c raw _
  refine ⟨encodeChunks_flatten c raw, fun ch h => ?_, ?_⟩
  · simpa only [IsChunk, IsEscapePair, or_assoc] using isChunk_of_mem_encodeChunks h
  · have hchain := encodeChunksFrom_isChain c [] raw
    simp only [IsEscapePair, or_assoc] at hchain
    exact hchain

end Sys2Proof.Machine
end

section
/-! The CRC function: its rounds are linear and injective, which gives linearity, the detection of one changed byte, the
table form and the reflected form (41_checksum.md R112, R114, R118, R120). -/

namespace Sys2Proof.Machine

/-! ## Linearity -/

/-- Bit `i` of a round: the register shifted down, and the constant where bit 0 was 1 (41_checksum.md R111). -/
theorem getLsbD_crcRound (c : Word16) (i : Nat) :
    (crcRound c).getLsbD i = (c.getLsbD (1 + i) ^^ (c.getLsbD 0 && (0x8408#16).getLsbD i)) := by
  unfold crcRound
  cases c.getLsbD 0 <;> simp [BitVec.getLsbD_ushiftRight]

theorem crcRound_xor (c d : Word16) : crcRound (c ^^^ d) = crcRound c ^^^ crcRound d := by
  refine BitVec.eq_of_getLsbD_eq fun i _ => ?_
  simp only [getLsbD_crcRound, BitVec.getLsbD_xor, Bool.and_xor_distrib_right, Bool.xor_assoc, Bool.xor_left_comm]

theorem crcRounds_xor (n : Nat) (c d : Word16) : crcRounds n (c ^^^ d) = crcRounds n c ^^^ crcRounds n d := by
  induction n generalizing c d with
  | zero => rfl
  | succ n ih => rw [crcRounds, crcRound_xor, ih]; rfl

theorem crcStep_xor (c d : Word16) (a b : Byte) : crcStep (c ^^^ d) (a ^^^ b) = crcStep c a ^^^ crcStep d b := by
  rw [crcStep, crcStep, crcStep, ← crcRounds_xor, BitVec.setWidth_xor]
  ac_rfl

/-- The CRC of the bytewise exclusive-or of two messages of one length, from any two start values (41_checksum.md R120). -/
theorem crcFold_zipWith_xor {a b : List Byte} (h : a.length = b.length) (c d : Word16) :
    crcFold (c ^^^ d) (List.zipWith (· ^^^ ·) a b) = crcFold c a ^^^ crcFold d b := by
  induction a generalizing b c d with
  | nil => rw [List.eq_nil_of_length_eq_zero h.symm]; rfl
  | cons x xs ih =>
    cases b with
    | nil => cases h
    | cons y ys =>
      rw [List.zipWith_cons_cons, crcFold, crcStep_xor, ih (Nat.succ.inj h)]
      rfl

/-- Exclusive-or with zero bytes leaves a message alone. -/
theorem zipWith_xor_replicate_zero (xs : List Byte) :
    List.zipWith (· ^^^ ·) (List.replicate xs.length 0x00) xs = xs := by
  induction xs with
  | nil => rfl
  | cons x xs ih =>
    have hx : 0x00 ^^^ x = x := BitVec.zero_xor
    rw [List.length_cons, List.replicate_succ, List.zipWith_cons_cons, ih, hx]

/-- Settles O20: both laws are `crcFold_zipWith_xor`, the second with as many zero bytes as the message has. -/
theorem crcIsLinear : Obligations.CrcIsLinear := by
  refine ⟨fun a b h => crcFold_zipWith_xor h 0x0000 0x0000, fun c xs => ?_⟩
  have hc : c ^^^ 0x0000 = c := BitVec.xor_zero
  rw [← crcFold_zipWith_xor List.length_replicate, zipWith_xor_replicate_zero, hc]

/-! ## Injectivity -/

/-- A round that leaves zero took zero: bit 15 of the constant is 1 and that of the shifted register 0, so bit 0 was 0, and
the round only shifted. -/
theorem eq_zero_of_crcRound_eq_zero {c : Word16} (h : crcRound c = 0#16) : c = 0#16 := by
  have hbit (i : Nat) : (c.getLsbD (1 + i) ^^ (c.getLsbD 0 && (0x8408#16).getLsbD i)) = false := by
    rw [← getLsbD_crcRound, h]
    exact BitVec.getLsbD_zero
  have hlow : c.getLsbD 0 = false := by simpa using hbit 15
  refine BitVec.eq_of_getLsbD_eq fun i hi => ?_
  rw [BitVec.getLsbD_zero]
  cases i with
  | zero => exact hlow
  | succ i => simpa only [hlow, Nat.add_comm, Bool.false_and, Bool.xor_false] using hbit i

theorem crcRound_injective : Function.Injective crcRound := by
  intro c d h
  have hzero : crcRound (c ^^^ d) = 0#16 := by rw [crcRound_xor, h, BitVec.xor_self]
  exact BitVec.xor_eq_zero_iff.mp (eq_zero_of_crcRound_eq_zero hzero)

theorem crcRounds_injective (n : Nat) : Function.Injective (crcRounds n) := by
  induction n with
  | zero => exact Function.injective_id
  | succ n ih => exact ih.comp crcRound_injective

theorem crcStep_injective (b : Byte) : Function.Injective fun c => crcStep c b :=
  fun _ _ h => (BitVec.xor_left_inj _).mp (crcRounds_injective 8 h)

/-- Two bytes fold differently into one register. -/
theorem crcStep_byte_injective (c : Word16) : Function.Injective (crcStep c) := by
  intro a b h
  have hwide : a.setWidth 16 = b.setWidth 16 := (BitVec.xor_right_inj _).mp (crcRounds_injective 8 h)
  simpa only [BitVec.setWidth_setWidth_of_le _ (by decide : 8 ≤ 16), BitVec.setWidth_eq] using
    congrArg (BitVec.setWidth 8) hwide

theorem crcFold_injective (xs : List Byte) : Function.Injective fun c => crcFold c xs := by
  induction xs with
  | nil => exact Function.injective_id
  | cons b rest ih => exact ih.comp (crcStep_injective b)

theorem crcFold_append (c : Word16) (a b : List Byte) : crcFold c (a ++ b) = crcFold (crcFold c a) b := by
  simp only [crcFold_eq_foldl, List.foldl_append]

/-- One changed byte changes the CRC, from any start value (41_checksum.md R120). -/
theorem crcFold_ne_of_changed_byte (c : Word16) (before after : List Byte) {x y : Byte} (h : x ≠ y) :
    crcFold c (before ++ x :: after) ≠ crcFold c (before ++ y :: after) := by
  rw [crcFold_append, crcFold_append]
  exact fun heq => h (crcStep_byte_injective _ (crcFold_injective after heq))

/-- Settles O21: the changed byte changes the register, and folding the rest is injective in it; the zero register is blind
to leading zero bytes. -/
theorem crcDetectsOneChangedByte : Obligations.CrcDetectsOneChangedByte := by
  refine ⟨fun before after x y h => crcFold_ne_of_changed_byte 0x0000 before after h, fun k xs => ?_⟩
  rw [crcFold_append, crcFold_zero_replicate_zero]

/-! ## The table form -/

/-- Rounds on a register whose low bits are zero only shift. -/
theorem crcRounds_of_low_zero (n : Nat) {c : Word16} (h : ∀ i < n, c.getLsbD i = false) :
    crcRounds n c = c >>> n := by
  induction n generalizing c with
  | zero => exact (BitVec.ushiftRight_zero c).symm
  | succ n ih =>
    have hround : crcRound c = c >>> 1 := if_neg (by rw [h 0 n.succ_pos]; exact Bool.false_ne_true)
    have hlow : ∀ i < n, (c >>> 1).getLsbD i = false := by
      intro i hi
      rw [BitVec.getLsbD_ushiftRight]
      exact h (1 + i) (by omega)
    rw [crcRounds, hround, ih hlow, ← BitVec.shiftRight_add, Nat.add_comm]

/-- A byte has no high byte. -/
theorem setWidth_ushiftRight_eight (b : Byte) : b.setWidth 16 >>> 8 = 0#16 := by
  refine BitVec.eq_of_getLsbD_eq fun i _ => ?_
  rw [BitVec.getLsbD_ushiftRight, BitVec.getLsbD_setWidth, BitVec.getLsbD_of_ge b _ (by omega), Bool.and_false,
    BitVec.getLsbD_zero]

/-- Eight rounds shift the high byte down and look the low byte up in the table (41_checksum.md R114). -/
theorem crcRounds_eight (c : Word16) : crcRounds 8 c = c >>> 8 ^^^ crcTable (c.setWidth 8) := by
  let low : Word16 := (c.setWidth 8).setWidth 16
  have hlow : ∀ i < 8, (c ^^^ low).getLsbD i = false := by
    intro i hi
    have hi16 : i < 16 := by omega
    simp only [low, BitVec.getLsbD_xor, BitVec.getLsbD_setWidth, hi, hi16, decide_true, Bool.true_and, Bool.xor_self]
  have htable : crcTable (c.setWidth 8) = crcRounds 8 low := congrArg (crcRounds 8) BitVec.zero_xor
  calc crcRounds 8 c = crcRounds 8 ((c ^^^ low) ^^^ low) := by
        rw [BitVec.xor_assoc, BitVec.xor_self, BitVec.xor_zero]
    _ = (c ^^^ low) >>> 8 ^^^ crcRounds 8 low := by rw [crcRounds_xor, crcRounds_of_low_zero 8 hlow]
    _ = c >>> 8 ^^^ crcTable (c.setWidth 8) := by
        rw [BitVec.ushiftRight_xor_distrib, setWidth_ushiftRight_eight, BitVec.xor_zero, htable]

/-- Settles O18: the byte is folded into the low byte of the register only, so the high byte the table step shifts down is
that of `c`. -/
theorem crcStepIsTableStep : Obligations.CrcStepIsTableStep := by
  refine ⟨fun c b => ?_, by decide⟩
  rw [crcStep, crcRounds_eight, BitVec.ushiftRight_xor_distrib, setWidth_ushiftRight_eight, BitVec.xor_zero]
  rfl

/-! ## The parameter set read literally -/

theorem getLsbD_reverse_of_lt {w : Nat} (c : BitVec w) {i : Nat} (h : i < w) :
    c.reverse.getLsbD i = c.getLsbD (w - 1 - i) := by
  rw [BitVec.getLsbD_reverse, BitVec.getMsbD_eq_getLsbD, decide_eq_true h, Bool.true_and]

/-- Bit `i` of an MSB-first round: the register shifted up, and the constant where bit 15 was 1 (41_checksum.md R112). -/
theorem getLsbD_crcMsbRound (c : Word16) {i : Nat} (h : i < 16) : (crcMsbRound c).getLsbD i =
    ((!decide (i < 1) && c.getLsbD (i - 1)) ^^ (c.getLsbD 15 && (0x1021#16).getLsbD i)) := by
  unfold crcMsbRound
  cases c.getLsbD 15 <;> simp [BitVec.getLsbD_shiftLeft, h, -BitVec.getLsbD_eq_getElem]

/-- An MSB-first round is a round of the reflected register, with the reflected constant. -/
theorem crcMsbRound_reverse (c : Word16) : crcMsbRound c.reverse = (crcRound c).reverse := by
  refine BitVec.eq_of_getLsbD_eq fun i hi => ?_
  have hconst : (0x1021#16).getLsbD i = (0x8408#16).getLsbD (15 - i) := by
    revert i
    decide
  rw [getLsbD_reverse_of_lt _ hi, getLsbD_crcRound, getLsbD_crcMsbRound _ hi, hconst,
    getLsbD_reverse_of_lt _ (by omega), getLsbD_reverse_of_lt _ (by omega)]
  congr 1
  cases i with
  | zero => exact (BitVec.getLsbD_of_ge c 16 le_rfl).symm
  | succ i =>
    have hindex : 1 + (15 - (i + 1)) = 15 - (i + 1 - 1) := by omega
    rw [hindex]
    simp

theorem crcMsbRounds_reverse (n : Nat) (c : Word16) : crcMsbRounds n c.reverse = (crcRounds n c).reverse := by
  induction n generalizing c with
  | zero => rfl
  | succ n ih => rw [crcMsbRounds, crcMsbRound_reverse, ih]; rfl

theorem reverse_xor (c d : Word16) : (c ^^^ d).reverse = c.reverse ^^^ d.reverse := by
  refine BitVec.eq_of_getLsbD_eq fun i hi => ?_
  rw [BitVec.getLsbD_xor, getLsbD_reverse_of_lt _ hi, getLsbD_reverse_of_lt _ hi, getLsbD_reverse_of_lt _ hi,
    BitVec.getLsbD_xor]

/-- A reflected byte enters the MSB-first register where its reflection does. -/
theorem reverse_setWidth_shiftLeft (b : Byte) : b.reverse.setWidth 16 <<< 8 = (b.setWidth 16).reverse := by
  refine BitVec.eq_of_getLsbD_eq fun i hi => ?_
  rw [getLsbD_reverse_of_lt _ hi, BitVec.getLsbD_shiftLeft, BitVec.getLsbD_setWidth, BitVec.getLsbD_setWidth]
  by_cases hlow : i < 8
  · have hhigh : b.getLsbD (16 - 1 - i) = false := BitVec.getLsbD_of_ge b _ (by omega)
    simp only [hlow, hhigh, decide_true, Bool.not_true, Bool.and_false, Bool.false_and]
  · have hindex : 8 - 1 - (i - 8) = 16 - 1 - i := by omega
    have hsource : i - 8 < 16 := by omega
    have htarget : 16 - 1 - i < 16 := by omega
    rw [getLsbD_reverse_of_lt b (by omega), hindex]
    simp only [hi, hlow, hsource, htarget, decide_true, decide_false, Bool.not_false, Bool.true_and]

theorem crcMsbFold_reverse (c : Word16) (xs : List Byte) : crcMsbFold c.reverse xs = (crcFold c xs).reverse := by
  induction xs generalizing c with
  | nil => rfl
  | cons b rest ih =>
    rw [crcMsbFold, reverse_setWidth_shiftLeft, ← reverse_xor, crcMsbRounds_reverse, ih]
    rfl

/-- Settles O19: the MSB-first fold holds the reflected register after every byte, and the output is reflected back. -/
theorem crcMatchesKermitParameters : Obligations.CrcMatchesKermitParameters := by
  intro xs
  have hfold : crcMsbFold 0x0000 xs = (crcFold 0x0000 xs).reverse := crcMsbFold_reverse 0x0000 xs
  rw [crcMsbFirst, hfold, BitVec.reverse_reverse_eq]
  exact BitVec.xor_zero

end Sys2Proof.Machine
end

section
/-! CRC commands in a row (30_encoding.md R77, 41_checksum.md R118). -/

namespace Sys2Proof.Machine

/-- CRC_UPDATE is taken in every idle state of an admitted configuration in which its data is in bounds. -/
theorem takes_crcUpdate_iff {data : List Byte} {s : State} : Takes (.crcUpdate data) s ↔
    s.cfg.WellFormed ∧ s.busy = false ∧ data.length ≤ s.cfg.maxCount := by
  rw [Takes, wellFormed_crcUpdate]
  exact ⟨fun ⟨hc, hb, hfit, _⟩ => ⟨hc, hb, hfit⟩, fun ⟨hc, hb, hfit⟩ => ⟨hc, hb, hfit, acceptedWhole_noChunk _⟩⟩

theorem effectOf_crcUpdate_getLast? (data : List Byte) (s : State) :
    (effectOf (.crcUpdate data) s).replies.getLast? = some (.result (crcFold s.crc data)) := List.getLast?_concat

/-- Settles O16: both slices are in bounds where their join is, the second is folded into what the first left, and
`crcFold_append` joins the folds. -/
theorem crcUpdateIsStreaming : Obligations.CrcUpdateIsStreaming := by
  intro s a b htakes
  obtain ⟨hc, hb, hfit⟩ := takes_crcUpdate_iff.mp htakes
  rw [List.length_append] at hfit
  have hfirst : Takes (.crcUpdate a) s := takes_crcUpdate_iff.mpr ⟨hc, hb, by omega⟩
  have hsecond : Takes (.crcUpdate b) (effectOf (.crcUpdate a) s) := takes_crcUpdate_iff.mpr ⟨hc, hb, by
    change b.length ≤ s.cfg.maxCount
    omega⟩
  refine ⟨_, _, _, exec_of_takes hfirst, exec_of_takes hsecond, exec_of_takes htakes, ?_, ?_⟩
  · rw [effectOf_crcUpdate_crc, effectOf_crcUpdate_crc, effectOf_crcUpdate_crc, crcFold_append]
  · rw [effectOf_crcUpdate_getLast?, effectOf_crcUpdate_getLast?, effectOf_crcUpdate_crc, crcFold_append]

/-- A step on the record of a command that is taken has the command's effect. -/
theorem step_encode {s : State} {i : Instr} {rest : List Input} (h : s.inputs = .command (encode i) :: rest)
    (htakes : Takes i (s.withInputs rest)) : step s = .next (effectOf i (s.withInputs rest)) :=
  (stepRunsDecodedCommand s _ i rest h (decode_encode i)).trans (exec_of_takes htakes)

/-- Settles O17: the first record zeroes CRC and leaves the second one next, which folds its data from zero. -/
theorem pseudoCrcLeavesChecksum : Obligations.PseudoCrcLeavesChecksum := by
  intro s xs rest htakes hinputs
  obtain ⟨hc, hb, hfit⟩ := takes_crcUpdate_iff.mp htakes
  have hreset : Takes .crcReset (s.withInputs (.command (encode (.crcUpdate xs)) :: rest)) :=
    ⟨hc, hb, rfl, acceptedWhole_noChunk _⟩
  have hupdate : Takes (.crcUpdate xs)
      ((effectOf .crcReset (s.withInputs (.command (encode (.crcUpdate xs)) :: rest))).withInputs rest) :=
    takes_crcUpdate_iff.mpr ⟨hc, hb, hfit⟩
  exact ⟨_, _, step_encode hinputs hreset, step_encode rfl hupdate, rfl, rfl⟩

end Sys2Proof.Machine
end

section
/-! RECEIVE from its issue to its end: the read it issues, every way an answer ends it, and the answers outside the
transport contract (42_framer.md R141 to R151, 60_exceptions.md R176). -/

namespace Sys2Proof.Machine

/-- Settles O40: the issue step asks, resets CRC, and issues the read with its number. -/
theorem receiveIssuesBoundedRead : Obligations.ReceiveIssuesBoundedRead := by
  intro useCrc maxlen s htakes hready hroom
  have hevents : (s.askReady.setCrc 0x0000).events = s.events ++ [.isReady true] := askReady_events_of_nextReady hready
  rw [exec_receiveInstr htakes, receiveEffect_reads useCrc hready (Nat.one_le_iff_ne_zero.mp hroom)]
  refine ⟨_, rfl, ?_, rfl, rfl, rfl, rfl, rfl, rfl, rfl, fun _ => rfl, rfl, rfl, rfl, rfl, rfl⟩
  rw [State.readUntilEnd_events, hevents, List.append_assoc]
  rfl

/-- Without bytes every answer is admitted (60_exceptions.md R176). -/
theorem allowedAnswer_timeout (s : State) (p : PendingRead) : AllowedAnswer s p .timeout := nofun

theorem allowedAnswer_overflow (s : State) (p : PendingRead) : AllowedAnswer s p .overflow := nofun

/-- With no input the core waits for the transport while BUSY = 1, and for a command otherwise. -/
theorem step_of_no_input {s : State} (hc : s.cfg.WellFormed) (hinputs : s.inputs = []) :
    step s = if s.busy then .fault .awaitingTransport else .fault .awaitingCommand := by
  unfold step
  rw [hinputs]
  exact withConfig_of_wellFormed hc _

/-- Settles O41: both answers are admitted and end in `finishErr` with CRC as it was; a waiting core is BUSY. -/
theorem transportFailureEndsReceive : Obligations.TransportFailureEndsReceive := by
  refine ⟨fun s p hanswered => ?_, fun s p hanswered => ?_, fun s p ⟨hinv, hpending⟩ hinputs => ?_⟩
  · exact ⟨_, hanswered.step_eq (allowedAnswer_timeout s p), endsInError_finishErr s p s.crc _ _, rfl⟩
  · exact ⟨_, hanswered.step_eq (allowedAnswer_overflow s p), endsInError_finishErr s p s.crc _ _, rfl⟩
  · have hbusy : s.busy = true := hinv.busy_iff_pending.mpr (by rw [hpending]; exact Option.some_ne_none p)
    rw [step_of_no_input hinv.config hinputs, if_pos hbusy]

/-- A misread ends the read as EncodingError; it is no empty frame, which has none (42_framer.md R146). -/
theorem completeRead_misread {s : State} {bs : List Byte} (h : (unescape s.cfg bs).2 = true) (p : PendingRead) :
    completeRead p (.found bs) s = s.endRead.finishErr .errorEncoding .encodingError p.maxlen := by
  have hne : bs ≠ [] := by
    rintro rfl
    cases h
  simp [completeRead, hne, h]

/-- What an admitted answer decodes to is shorter than MAXLEN (42_framer.md R146). -/
theorem AllowedBytes.unescape_length_lt {s : State} {p : PendingRead} {bs : List Byte} (h : AllowedBytes s p bs)
    (hroom : 1 ≤ p.maxlen) : (unescape s.cfg bs).1.length < p.maxlen := by
  have hdecoded := unescape_length_le s.cfg bs
  have hbound := h.1
  omega

/-- Settles O43: the misread is one of the ways a read ends; the bound of the read is MAXLEN - 1, and unescaping neither
lengthens nor loses everything. -/
theorem receivedMisreadIsEncodingError : Obligations.ReceivedMisreadIsEncodingError := by
  intro s p bs hanswered hallowed
  refine ⟨fun hmisread => ?_, ?_, unescape_ne_nil s.cfg⟩
  · have hstep := hanswered.step_eq hallowed.allowedAnswer
    rw [completeRead_misread (s := s.withInputs s.inputs.tail) hmisread] at hstep
    exact ⟨_, hstep, endsInError_finishErr s p s.crc _ _, rfl⟩
  · obtain ⟨⟨hinv, hpending⟩, -⟩ := hanswered
    obtain ⟨hroom, -⟩ := hinv.pending_read p hpending
    exact hallowed.unescape_length_lt hroom

/-- Settles O45: `completeRead_cases` says how a read can end, and a delivered payload fits MAXLEN. -/
theorem receiveEndsInTerminalState : Obligations.ReceiveEndsInTerminalState := by
  intro s p a hanswered hallowed
  refine ⟨_, hanswered.step_eq hallowed, ?_⟩
  obtain ⟨⟨hinv, hpending⟩, -⟩ := hanswered
  obtain ⟨hroom, -⟩ := hinv.pending_read p hpending
  obtain ⟨crc, code, rx, hend, hcode⟩ | ⟨crc, bs, m, rfl, hend, hm⟩ :=
    completeRead_cases p a (s.withInputs s.inputs.tail)
  · rw [hend]
    obtain ⟨herr, hrx, hcount, hsame, hframe⟩ := endsInError_finishErr s p crc code rx
    refine ⟨?_, fun _ => hcount, hsame, hframe⟩
    rw [herr, hrx]
    rcases hcode with ⟨rfl, rfl⟩ | ⟨rfl, rfl⟩ | ⟨rfl, rfl⟩ | ⟨rfl, rfl⟩
    · exact .inl ⟨rfl, rfl⟩
    · exact .inr (.inl ⟨rfl, rfl⟩)
    · exact .inr (.inr (.inl ⟨rfl, rfl⟩))
    · exact .inr (.inr (.inr (.inl ⟨rfl, rfl⟩)))
  · rw [hend]
    have hfits : m.length ≤ p.maxlen := hm.trans ((hallowed bs rfl).unescape_length_lt hroom).le
    obtain ⟨herr, hrx, -, -, hsame, hframe⟩ := delivers_finishDelivered s crc hfits
    exact ⟨.inr (.inr (.inr (.inr ⟨hrx, herr⟩))), fun hne => absurd hrx hne, hsame, hframe⟩

/-! ## The transport contract -/

theorem withAllowed_refused {s : State} {p : PendingRead} {bs : List Byte} (h : ¬ AllowedBytes s p bs)
    (k : Host.Outcome State Fault Refusal) : withAllowed s p (.found bs) k = .refused .transportContract :=
  if_neg (mt answerAllowed_found.mp h)

/-- The answer to the awaited read is looked at first. -/
theorem acceptAnswer_of_awaited {s : State} {readId : Nat} {p : PendingRead} (hc : s.cfg.WellFormed)
    (hp : s.awaitedRead readId = some p) (a : ReadAnswer) :
    acceptAnswer readId a s = withAllowed s p a (.next (completeRead p a s)) := by
  rw [acceptAnswer, withConfig_of_wellFormed hc, hp]

theorem acceptAnswer_of_abandoned {s : State} {readId : Nat} {p : PendingRead} (hc : s.cfg.WellFormed)
    (hw : s.awaitedRead readId = none) (hp : s.abandonedRead readId = some p) (a : ReadAnswer) :
    acceptAnswer readId a s = withAllowed s p a (.next (s.discardAnswer readId)) := by
  rw [acceptAnswer, withConfig_of_wellFormed hc, hw, hp]

/-- An answer to no read of the core is refused (notes/assumptions/5.md). -/
theorem acceptAnswer_of_unknown {s : State} {readId : Nat} (hc : s.cfg.WellFormed)
    (hw : s.awaitedRead readId = none) (hp : s.abandonedRead readId = none) (a : ReadAnswer) :
    acceptAnswer readId a s = .refused .transportContract := by
  rw [acceptAnswer, withConfig_of_wellFormed hc, hw, hp]

theorem awaitedRead_eq_none {s : State} {readId : Nat} (h : ∀ p, s.pending = some p → p.id ≠ readId) :
    s.awaitedRead readId = none := by
  refine Option.eq_none_iff_forall_ne_some.mpr fun p hp => ?_
  obtain ⟨hpending, hid⟩ := awaitedRead_eq_some.mp hp
  exact h p hpending hid

theorem abandonedRead_eq_none {s : State} {readId : Nat} (h : ∀ p ∈ s.abandoned, p.id ≠ readId) :
    s.abandonedRead readId = none :=
  List.find?_eq_none.mpr fun p hp => by simpa using h p hp

/-- A command one of whose chunks is answered with another length than its own has no step (60_exceptions.md R176). -/
theorem exec_of_shortWrite {i : Instr} {s : State} (hc : s.cfg.WellFormed) (hb : s.busy = false)
    (hwf : i.wellFormed s.cfg = true) {k n : Nat} {chunk : List Byte} (hchunk : (writesOf i s)[k]? = some chunk)
    (hn : s.wrote[k]? = some n) (hne : n ≠ chunk.length) : exec i s = .refused .transportContract := by
  have hshort : acceptedWhole (writesOf i s) s.wrote = false :=
    eq_false_of_ne_true fun h => hne ((acceptedWhole_iff _ _).mp h k n chunk hchunk hn)
  rw [exec_eq_takeCommand, hwf, takeCommand_shortWrite hc hb hshort]

/-- Settles O46: the read an answer names is found by its number, awaited or abandoned, and its bound is not kept; a write
answered short is not accepted whole; a number that names no read is found nowhere. -/
theorem transportContractIsEnforced : Obligations.TransportContractIsEnforced := by
  refine ⟨fun s p bs ⟨⟨hinv, hpending⟩, rest, hinputs⟩ hbad => ?_, fun s p bs rest hinv hp hinputs hbad => ?_,
    fun i s k n chunk hc hb hwf hchunk hn hne => exec_of_shortWrite hc hb hwf hchunk hn hne,
    fun s readId a rest hinv hinputs hawaited habandoned => ?_⟩
  · have hawaited : (s.withInputs rest).awaitedRead p.id = some p := awaitedRead_eq_some.mpr ⟨hpending, rfl⟩
    exact (step_of_inputs hinputs).trans ((acceptAnswer_of_awaited (s := s.withInputs rest) hinv.config hawaited _).trans
      (withAllowed_refused (s := s.withInputs rest) hbad _))
  · exact (step_of_inputs hinputs).trans ((acceptAnswer_of_abandoned (s := s.withInputs rest) hinv.config
      (hinv.awaitedRead hp) (hinv.abandonedRead hp) _).trans (withAllowed_refused (s := s.withInputs rest) hbad _))
  · exact (step_of_inputs hinputs).trans (acceptAnswer_of_unknown (s := s.withInputs rest) hinv.config
      (awaitedRead_eq_none hawaited) (abandonedRead_eq_none habandoned) a)

/-! ## Reset -/

/-- The step of a reset (70_reset_and_hazards.md R190). -/
theorem step_reset {s : State} {rest : List Input} (hc : s.cfg.WellFormed) (hinputs : s.inputs = .reset :: rest) :
    step s = .next (s.withInputs rest).applyReset :=
  (step_of_inputs hinputs).trans (withConfig_of_wellFormed (s := s.withInputs rest) hc _)

/-- Settles O10: power-on and reset write the reset values, and BUSY = 0 after either. -/
theorem resetGivesResetValues : Obligations.ResetGivesResetValues := by
  refine ⟨fun c => ⟨rfl, rfl, rfl, rfl, rfl, rfl⟩, fun s rest hc hinputs => ⟨_, step_reset hc hinputs, rfl, rfl, rfl, rfl,
    rfl, rfl, rfl, rfl, rfl, rfl, rfl, ?_⟩⟩
  rintro rfl
  exact step_of_no_input (s := (s.withInputs []).applyReset) hc rfl

/-- Settles O11: reset moves the outstanding read to the abandoned ones; under the invariant an abandoned read is found by
its number and is not the awaited one, so its answer is discarded. -/
theorem abandonedReadAnswerIsDiscarded : Obligations.AbandonedReadAnswerIsDiscarded := by
  refine ⟨fun s p rest hc hpending hinputs => ⟨_, step_reset hc hinputs, rfl, rfl, rfl, rfl, rfl, rfl, ?_⟩,
    fun s p a rest hinv hp hallowed hinputs => ?_⟩
  · have hlast : p ∈ s.pending.toList := by rw [hpending]; exact List.mem_singleton_self p
    exact List.mem_append_right _ hlast
  · exact (step_of_inputs hinputs).trans (acceptAnswer_abandoned (s := s.withInputs rest) hinv.config
      (hinv.awaitedRead hp) (hinv.abandonedRead hp) (answerAllowed_of_allowedAnswer hallowed))

end Sys2Proof.Machine
end

section
/-! From SEND to RECEIVE: the message that travels is the payload with its CRC field, and the receiver tells it from one
with a changed byte (42_framer.md R154, R155). -/

namespace Sys2Proof.Machine

/-- The raw bytes of a frame: the payload and, with C = 1, its CRC field (42_framer.md R135). -/
def message (useCrc : Bool) (payload : List Byte) : List Byte :=
  payload ++ if useCrc then crc16Be (crcFold 0x0000 payload) else []

theorem wireFrame_eq_escaped_message (c : Config) (useCrc : Bool) (payload : List Byte) :
    wireFrame c useCrc payload = escaped c (message useCrc payload) ++ [c.pEnd] := by
  rw [wireFrame, message, escaped_append]
  cases useCrc <;> rfl

theorem escaped_eq_nil_iff (c : Config) (p : List Byte) : escaped c p = [] ↔ p = [] := by
  refine ⟨fun h => ?_, fun h => by rw [h]; rfl⟩
  have hlength := escaped_length c p
  rw [h, List.length_nil] at hlength
  exact List.eq_nil_of_length_eq_zero (by omega)

theorem message_eq_nil_iff (useCrc : Bool) (payload : List Byte) :
    message useCrc payload = [] ↔ payload = [] ∧ useCrc = false := by
  cases useCrc <;> simp [message, crc16Be]

/-- The wire bytes in front of END are the escaped message (42_framer.md R131). -/
theorem wire_of_send {useCrc : Bool} {payload w : List Byte} {s t : State} (htakes : Takes (sendInstr useCrc payload) s)
    (hready : s.nextReady = true) (hexec : exec (sendInstr useCrc payload) s = .next t)
    (hwire : t.wire = s.wire ++ w ++ [s.cfg.pEnd]) : w = escaped s.cfg (message useCrc payload) := by
  rw [exec_sendInstr htakes] at hexec
  obtain rfl := Host.Outcome.next.inj hexec
  rw [sendEffect_wire useCrc payload hready, wireFrame_eq_escaped_message, List.append_assoc, List.append_cancel_left_eq,
    List.append_cancel_right_eq] at hwire
  exact hwire.symm

/-- A message that arrives as it was sent is Delivered (42_framer.md R147, R148). -/
theorem delivers_message {r : State} {p : PendingRead} {bs payload : List Byte} (hanswered : AnsweredBy r p (.found bs))
    (hallowed : AllowedBytes r p bs) (hmessage : bs ≠ [] ∨ r.cfg.emptyFrame = .asEmptyMessage)
    (hclean : unescape r.cfg bs = (message p.useCrc payload, false)) :
    ∃ u, step r = .next u ∧ Delivers r u p payload := by
  obtain ⟨u, hstep, hchecked, -, hwhole⟩ := receiveChecksAndDelivers r p bs _ hanswered hallowed hmessage hclean
  refine ⟨u, hstep, ?_⟩
  cases huse : p.useCrc with
  | false =>
    have hdelivers := (hwhole huse).2
    rw [huse, message, if_neg Bool.false_ne_true, List.append_nil] at hdelivers
    exact hdelivers
  | true =>
    have hsplit : message p.useCrc payload =
        payload ++ [hi8 (crcFold 0x0000 payload), lo8 (crcFold 0x0000 payload)] := by
      rw [huse]
      rfl
    obtain ⟨-, hequal, -⟩ := hchecked huse payload _ _ hsplit
    exact hequal ((eq_joinBe_iff _ _ _).mp (joinBe_hi8_lo8 _).symm)

/-- Settles O47: the wire is the escaped message, which is admitted and decodes to the message; the message is empty only
for an empty payload with C = 0, where the empty-frame policy decides. -/
theorem sendReceiveRoundTrip : Obligations.SendReceiveRoundTrip := by
  intro useCrc payload w s t r p htakes hready hexec hwire hcfg hanswered huse hroom
  have hw := wire_of_send htakes hready hexec hwire
  have hdistinct : r.cfg.BytesDistinct := hcfg ▸ htakes.1.1
  rw [← hcfg, ← huse] at hw ⊢
  have hallowed : AllowedBytes r p w := ⟨by omega, hw ▸ not_pEnd_mem_escaped hdistinct _⟩
  have hclean : unescape r.cfg w = (message p.useCrc payload, false) := by rw [hw, unescape_escaped hdistinct]
  by_cases hempty : payload = [] ∧ p.useCrc = false ∧ r.cfg.emptyFrame = .asTimeout
  · obtain ⟨hpayload, hplain, hpolicy⟩ := hempty
    have hnil : w = [] := by
      rw [hw, escaped_eq_nil_iff, message_eq_nil_iff]
      exact ⟨hpayload, hplain⟩
    subst hnil
    obtain ⟨u, hstep, htimeout, -, -⟩ := emptyFrameFollowsPolicy r p hanswered
    exact ⟨u, hstep, fun h => absurd ⟨hpayload, hplain, hpolicy⟩ h, fun _ => htimeout hpolicy⟩
  · have hmessage : w ≠ [] ∨ r.cfg.emptyFrame = .asEmptyMessage := by
      by_contra hno
      obtain ⟨hnil, hpolicy⟩ := not_or.mp hno
      rw [not_not, hw, escaped_eq_nil_iff, message_eq_nil_iff] at hnil
      cases hp : r.cfg.emptyFrame with
      | asTimeout => exact hempty ⟨hnil.1, hnil.2, hp⟩
      | asEmptyMessage => exact hpolicy hp
    obtain ⟨u, hstep, hdelivers⟩ := delivers_message hanswered hallowed hmessage hclean
    exact ⟨u, hstep, fun _ => hdelivers, fun h => absurd h hempty⟩

theorem joinBe_inj {hi lo hi' lo' : Byte} (h : joinBe hi lo = joinBe hi' lo') : hi = hi' ∧ lo = lo' := by
  have hvalue := congrArg BitVec.toNat h
  rw [joinBe_toNat, joinBe_toNat] at hvalue
  have hlo := lo.isLt
  have hlo' := lo'.isLt
  exact ⟨BitVec.eq_of_toNat_eq (by omega), BitVec.eq_of_toNat_eq (by omega)⟩

/-- A field with one byte changed is another value's. -/
theorem changed_field {crc : Word16} {before after : List Byte} {x y : Byte}
    (hsent : crc16Be crc = before ++ x :: after) (hne : x ≠ y) :
    ∃ hi lo : Byte, before ++ y :: after = [hi, lo] ∧ crc ≠ joinBe hi lo := by
  have hcrc := joinBe_hi8_lo8 crc
  match before with
  | [] =>
    obtain ⟨rfl, rfl⟩ := List.cons.inj hsent
    exact ⟨y, lo8 crc, rfl, fun h => hne (joinBe_inj (hcrc.trans h)).1⟩
  | [hi] =>
    obtain ⟨rfl, hlast⟩ := List.cons.inj hsent
    obtain ⟨rfl, rfl⟩ := List.cons.inj hlast
    exact ⟨hi8 crc, y, rfl, fun h => hne (joinBe_inj (hcrc.trans h)).2⟩
  | _ :: _ :: _ =>
    have hlength := congrArg List.length hsent
    simp [crc16Be] at hlength

/-- A frame with exactly one byte changed has a field that is not its payload's CRC: the change is in the field, or in the
payload, whose CRC it changes (42_framer.md R155). -/
theorem field_ne_crc_of_changed_byte {payload before after : List Byte} {x y : Byte}
    (hsent : payload ++ crc16Be (crcFold 0x0000 payload) = before ++ x :: after) (hne : x ≠ y) :
    ∃ (payload' : List Byte) (hi lo : Byte), before ++ y :: after = payload' ++ [hi, lo] ∧
      crcFold 0x0000 payload' ≠ joinBe hi lo := by
  rcases List.append_eq_append_iff.mp hsent with ⟨inField, rfl, hfield⟩ | ⟨inPayload, hpayload, hafter⟩
  · obtain ⟨hi, lo, hchanged, hother⟩ := changed_field hfield hne
    exact ⟨payload, hi, lo, by rw [List.append_assoc, hchanged], hother⟩
  · cases inPayload with
    | nil =>
      obtain ⟨hi, lo, hchanged, hother⟩ := changed_field (before := []) hafter.symm hne
      rw [List.append_nil] at hpayload
      exact ⟨payload, hi, lo, by rw [← hpayload, ← hchanged, List.nil_append], hother⟩
    | cons _ tail =>
      obtain ⟨rfl, rfl⟩ := List.cons.inj hafter
      have hcrc := joinBe_hi8_lo8 (crcFold 0x0000 payload)
      refine ⟨before ++ y :: tail, _, _, (List.append_assoc before (y :: tail) _).symm, ?_⟩
      rw [hcrc, hpayload]
      exact (crcFold_ne_of_changed_byte 0x0000 before tail hne).symm

/-- Settles O48: the field of the received frame is not its payload's CRC. -/
theorem oneCorruptedByteIsDetected : Obligations.OneCorruptedByteIsDetected := by
  intro s p payload before after bs x y hsent hne hanswered hallowed huse hclean
  obtain ⟨payload', hi, lo, hout, hfield⟩ := field_ne_crc_of_changed_byte hsent hne
  have hbs : bs ≠ [] := by
    rintro rfl
    have hnil : before ++ y :: after = [] := (congrArg Prod.fst hclean).symm
    simp at hnil
  obtain ⟨t, hstep, hchecked, -, -⟩ := receiveChecksAndDelivers s p bs _ hanswered hallowed (.inl hbs) hclean
  obtain ⟨-, -, hdifferent⟩ := hchecked huse payload' hi lo hout
  exact ⟨t, hstep, hdifferent (mt (eq_joinBe_iff _ _ _).mpr hfield)⟩

end Sys2Proof.Machine
end

section
/-! What a step can do: of every command what it writes, and of every other input the state it leads to. The configuration,
TX and the result registers follow (10_state.md R23 to R30, 20_memory.md R42). -/

namespace Sys2Proof.Machine

/-- The ten commands by operation: the C bit of SEND and RECEIVE and the E bit of ENCODE are operands here. -/
theorem instr_cases {motive : Instr → Prop} (crcReset : motive .crcReset)
    (crcUpdate : ∀ data, motive (.crcUpdate data)) (crcRead : motive .crcRead)
    (encode : ∀ appendEnd raw, motive (encodeInstr appendEnd raw))
    (decode : ∀ maxlen wire, motive (.decode maxlen wire))
    (send : ∀ useCrc payload, motive (sendInstr useCrc payload))
    (receive : ∀ useCrc maxlen, motive (receiveInstr useCrc maxlen)) (i : Instr) : motive i := by
  cases i with
  | crcReset => exact crcReset
  | crcUpdate data => exact crcUpdate data
  | crcRead => exact crcRead
  | encode data => exact encode false data
  | encodeE data => exact encode true data
  | decode maxlen data => exact decode maxlen data
  | send data => exact send false data
  | sendC data => exact send true data
  | receive maxlen => exact receive false maxlen
  | receiveC maxlen => exact receive true maxlen

/-! ## The effects in one form each -/

/-- DECODE writes ERR, COUNT and OUTBUF below MAXLEN, with values that depend on the configuration and the operands only:
the output on success, nothing on an error (40_codec.md R95 to R98). -/
theorem decodeEffect_eq (c : Config) (maxlen : Nat) (wire : List Byte) : ∃ code p, p.length ≤ maxlen ∧
    ∀ s : State, s.cfg = c → decodeEffect maxlen wire s = ((s.setErr code).fillOutbuf p maxlen).setCount p.length := by
  generalize hcode : decodeOutcome (unescape c wire).2 (unescape c wire).1.length wire.length maxlen = code
  by_cases hok : code = .noError
  · subst hok
    exact ⟨_, _, (decodeOutcome_noError hcode).2, by rintro s rfl; exact decodeEffect_success hcode⟩
  · exact ⟨code, [], Nat.zero_le _, by rintro s rfl; exact decodeEffect_error hok hcode⟩

theorem effectOf_decode (maxlen : Nat) (wire : List Byte) : effectOf (.decode maxlen wire) = decodeEffect maxlen wire :=
  rfl

/-- SEND asks, and then either writes its frame with CRC, COUNT and ERR, or COUNT and ERR only (42_framer.md R131, R132). -/
theorem sendEffect_cases (useCrc : Bool) (payload : List Byte) (s : State) :
    (∃ crc, sendEffect useCrc payload s = (((s.askReady.setCrc crc).writeChunks (sendWrites useCrc payload s)).setCount
        (messageLength useCrc payload)).setErr .noError) ∨
    (sendWrites useCrc payload s = [] ∧ sendEffect useCrc payload s = (s.askReady.setCount 0).setErr .errorStream) := by
  cases hready : s.nextReady with
  | true =>
    have hwrites : sendWrites useCrc payload s = frameChunks s.cfg useCrc payload := if_pos hready
    rw [hwrites]
    exact .inl ⟨_, sendEffect_ready useCrc payload hready⟩
  | false =>
    have hwrites : sendWrites useCrc payload s = [] := if_neg (by rw [hready]; exact Bool.false_ne_true)
    exact .inr ⟨hwrites, sendEffect_notReady useCrc payload hready⟩

/-- RECEIVE asks, and then either issues its read, or ends at once (42_framer.md R141 to R143). -/
theorem receiveEffect_cases (useCrc : Bool) (maxlen : Nat) (s : State) :
    (1 ≤ maxlen ∧ receiveEffect useCrc maxlen s = (s.askReady.setCrc 0x0000).readUntilEnd maxlen useCrc) ∨
    (∃ code rx, receiveEffect useCrc maxlen s = ((s.askReady.setErr code).setCount 0).setRxState rx ∧
      (rx = .awaitingData ∨ rx = .bufferExhausted)) := by
  cases hready : s.nextReady with
  | false => exact .inr ⟨_, _, receiveEffect_notReady useCrc maxlen hready, .inl rfl⟩
  | true =>
    cases maxlen with
    | zero => exact .inr ⟨_, _, receiveEffect_zero useCrc hready, .inr rfl⟩
    | succ m => exact .inl ⟨Nat.succ_pos m, receiveEffect_reads useCrc hready m.succ_ne_zero⟩

theorem writesOf_sendInstr (useCrc : Bool) (payload : List Byte) (s : State) :
    writesOf (sendInstr useCrc payload) s = sendWrites useCrc payload s := by
  cases useCrc <;> rfl

theorem writesOf_receiveInstr (useCrc : Bool) (maxlen : Nat) (s : State) :
    writesOf (receiveInstr useCrc maxlen) s = [] := by
  cases useCrc <;> rfl

/-! ## The configuration -/

@[simp] theorem effectOf_cfg (i : Instr) (s : State) : (effectOf i s).cfg = s.cfg := by
  cases i using instr_cases with
  | crcReset | crcUpdate data | crcRead => rfl
  | encode appendEnd raw => rw [effectOf_encodeInstr]; rfl
  | decode maxlen wire =>
    obtain ⟨code, p, -, heffect⟩ := decodeEffect_eq s.cfg maxlen wire
    rw [effectOf_decode, heffect s rfl]
    rfl
  | send useCrc payload =>
    rw [effectOf_sendInstr]
    obtain ⟨crc, heffect⟩ | ⟨-, heffect⟩ := sendEffect_cases useCrc payload s <;> rw [heffect] <;> rfl
  | receive useCrc maxlen =>
    rw [effectOf_receiveInstr]
    obtain ⟨-, heffect⟩ | ⟨code, rx, heffect, -⟩ := receiveEffect_cases useCrc maxlen s <;> rw [heffect] <;> rfl

/-! ## TX -/

/-- A command adds to TX the chunks it writes (20_memory.md R42). -/
theorem effectOf_tx (i : Instr) (s : State) : (effectOf i s).tx = s.tx ++ writesOf i s := by
  cases i using instr_cases with
  | crcReset | crcUpdate data | crcRead => exact (List.append_nil _).symm
  | encode appendEnd raw => simp [effectOf_encodeInstr, writesOf_encodeInstr, State.tx, encodeEffect_events]
  | decode maxlen wire =>
    obtain ⟨code, p, -, heffect⟩ := decodeEffect_eq s.cfg maxlen wire
    rw [effectOf_decode, heffect s rfl]
    exact (List.append_nil _).symm
  | send useCrc payload =>
    rw [effectOf_sendInstr, writesOf_sendInstr]
    obtain ⟨crc, heffect⟩ | ⟨hnone, heffect⟩ := sendEffect_cases useCrc payload s
    · simp [heffect, State.tx]
    · simp [heffect, hnone, State.tx]
  | receive useCrc maxlen =>
    rw [effectOf_receiveInstr, writesOf_receiveInstr]
    obtain ⟨-, heffect⟩ | ⟨code, rx, heffect, -⟩ := receiveEffect_cases useCrc maxlen s <;> simp [heffect, State.tx]

theorem encodeChunks_nonempty {c : Config} {raw ch : List Byte} (h : ch ∈ encodeChunks c raw) : ch ≠ [] :=
  (isChunk_of_mem_encodeChunks h).1

theorem encodeWrites_nonempty {c : Config} {appendEnd : Bool} {raw ch : List Byte}
    (h : ch ∈ encodeWrites c appendEnd raw) : ch ≠ [] := by
  unfold encodeWrites at h
  split at h
  · cases h
  · rcases List.mem_append.mp h with h | h
    · exact encodeChunks_nonempty h
    · split at h
      · rw [List.mem_singleton.mp h]
        exact List.cons_ne_nil _ _
      · cases h

theorem frameChunks_nonempty {c : Config} {useCrc : Bool} {payload ch : List Byte}
    (h : ch ∈ frameChunks c useCrc payload) : ch ≠ [] := by
  rw [frameChunks, List.mem_append, List.mem_append] at h
  rcases h with (h | h) | h
  · exact encodeChunks_nonempty h
  · split at h
    · exact encodeChunks_nonempty h
    · cases h
  · rw [List.mem_singleton.mp h]
    exact List.cons_ne_nil _ _

/-- Every chunk a command writes is non-empty (20_memory.md R42). -/
theorem writesOf_nonempty {i : Instr} {s : State} {ch : List Byte} (h : ch ∈ writesOf i s) : ch ≠ [] := by
  cases i using instr_cases with
  | crcReset | crcUpdate data | crcRead | decode maxlen wire => cases h
  | encode appendEnd raw =>
    rw [writesOf_encodeInstr] at h
    exact encodeWrites_nonempty h
  | send useCrc payload =>
    rw [writesOf_sendInstr, sendWrites] at h
    split at h
    · exact frameChunks_nonempty h
    · cases h
  | receive useCrc maxlen =>
    rw [writesOf_receiveInstr] at h
    cases h

/-- The commands that write. -/
theorem exists_encode_or_send_of_writesOf {i : Instr} {s : State} (h : writesOf i s ≠ []) :
    (∃ e d, i = encodeInstr e d) ∨ ∃ c d, i = sendInstr c d := by
  cases i using instr_cases with
  | crcReset | crcUpdate _ | crcRead | decode _ _ => exact absurd rfl h
  | encode appendEnd raw => exact .inl ⟨appendEnd, raw, rfl⟩
  | send useCrc payload => exact .inr ⟨useCrc, payload, rfl⟩
  | receive useCrc maxlen => exact absurd (writesOf_receiveInstr useCrc maxlen s) h

/-! ## The other inputs -/

/-- The states the caller's reads can lead to: one reply more, and some free values drawn. -/
def AfterRead (s t : State) : Prop := ∃ value draws, s.draws ≤ draws ∧ t = { s.reply value with draws := draws }

/-- What a step that goes on has done with the input it took. -/
inductive Accepted (s : State) : Input → State → Prop
  | command {r : Command} {i : Instr} (hdecode : decode r = .ok i) (hexec : exec i s = .next (effectOf i s)) :
      Accepted s (.command r) (effectOf i s)
  | answer {p : PendingRead} {a : ReadAnswer} (hp : s.pending = some p)
      (ha : answerAllowed s.cfg.pEnd (p.maxlen - 1) a = true) : Accepted s (.answer p.id a) (completeRead p a s)
  | discard (readId : Nat) (a : ReadAnswer) : Accepted s (.answer readId a) (s.discardAnswer readId)
  | reset : Accepted s .reset s.applyReset
  | readRegister {n : Nat} {t : State} (h : AfterRead s t) : Accepted s (.readRegister n) t
  | readOutbuf {addr : Nat} {t : State} (h : AfterRead s t) : Accepted s (.readOutbuf addr) t

theorem afterRead_reply (s : State) (value : Reply) : AfterRead s (s.reply value) := ⟨value, s.draws, le_rfl, rfl⟩

theorem afterRead_replyFree (s : State) (value : Reply) : AfterRead s (s.replyFree value) :=
  ⟨value, s.draws + 1, Nat.le_succ _, rfl⟩

theorem afterRead_of_readRegister {n : Nat} {s t : State} (h : readRegister n s = .next t) : AfterRead s t := by
  obtain ⟨-, h⟩ := withConfig_next.mp h
  split at h <;> cases h
  · exact afterRead_reply s _
  · split
    · exact afterRead_replyFree s _
    · exact afterRead_reply s _
  · split
    · exact afterRead_replyFree s _
    · exact afterRead_reply s _

theorem afterRead_of_readOutbuf {addr : Nat} {s t : State} (h : readOutbuf addr s = .next t) : AfterRead s t := by
  obtain ⟨-, h⟩ := withConfig_next.mp h
  split at h <;> cases h
  split
  · exact afterRead_replyFree s _
  · exact afterRead_reply s _

/-- A record that is no command is refused. -/
theorem issueCommand_next {r : Command} {s t : State} (h : issueCommand r s = .next t) :
    ∃ i, decode r = .ok i ∧ exec i s = .next t := by
  unfold issueCommand at h
  split at h
  · next i hi => exact ⟨i, hi, h⟩
  · obtain ⟨-, -, hfit, -, -⟩ := takeCommand_next.mp h
    cases hfit

theorem accept_next {input : Input} {s t : State} (h : accept input s = .next t) : Accepted s input t := by
  cases input with
  | command r =>
    obtain ⟨i, hdecode, hexec⟩ := issueCommand_next h
    obtain ⟨-, -, -, -, rfl⟩ := exec_next.mp hexec
    exact .command hdecode hexec
  | answer readId a =>
    obtain ⟨-, ⟨p, hp, rfl, ha, rfl⟩ | ⟨p, -, -, -, rfl⟩⟩ := acceptAnswer_next h
    · exact .answer hp ha
    · exact .discard readId a
  | reset =>
    obtain ⟨-, h⟩ := withConfig_next.mp h
    cases h
    exact .reset
  | readRegister n => exact .readRegister (afterRead_of_readRegister h)
  | readOutbuf addr => exact .readOutbuf (afterRead_of_readOutbuf h)

/-- A step that goes on has taken an input, and done with it one of the six things above. -/
theorem accepted_of_step {s t : State} (h : step s = .next t) :
    ∃ input rest, s.inputs = input :: rest ∧ Accepted (s.withInputs rest) input t := by
  obtain ⟨input, rest, hinputs, haccept⟩ := step_next h
  exact ⟨input, rest, hinputs, accept_next haccept⟩

theorem completeRead_cfg (p : PendingRead) (a : ReadAnswer) (s : State) : (completeRead p a s).cfg = s.cfg := by
  obtain ⟨c, code, rx, hend, -⟩ | ⟨c, bs, m, -, hend, -⟩ := completeRead_cases p a s <;> rw [hend] <;> rfl

theorem completeRead_events (p : PendingRead) (a : ReadAnswer) (s : State) :
    (completeRead p a s).events = s.events := by
  obtain ⟨c, code, rx, hend, -⟩ | ⟨c, bs, m, -, hend, -⟩ := completeRead_cases p a s <;> rw [hend] <;> rfl

/-- Settles O53: neither the effects nor what the other inputs do write the configuration. -/
theorem configurationIsNeverWritten : Obligations.ConfigurationIsNeverWritten := by
  intro s t h
  obtain ⟨input, rest, -, haccepted⟩ := accepted_of_step h
  cases haccepted with
  | command _ _ => exact effectOf_cfg _ _
  | answer _ _ => exact completeRead_cfg _ _ _
  | discard _ _ | reset => rfl
  | readRegister h | readOutbuf h => obtain ⟨value, draws, -, rfl⟩ := h; rfl

/-- TX grows by the chunks of a command; no other input makes a transport event. -/
theorem tx_of_accepted {s t : State} {input : Input} (h : Accepted s input t) :
    t.tx = s.tx ∨ ∃ r i, input = .command r ∧ decode r = .ok i ∧ t.tx = s.tx ++ writesOf i s := by
  cases h with
  | @command r i hdecode _ => exact .inr ⟨r, i, rfl, hdecode, effectOf_tx i s⟩
  | answer _ _ => exact .inl (congrArg chunksWritten (completeRead_events _ _ _))
  | discard _ _ | reset => exact .inl rfl
  | readRegister h | readOutbuf h => obtain ⟨value, draws, -, rfl⟩ := h; exact .inl rfl

/-- Settles O54: a command appends the chunks it writes, which are non-empty, and only ENCODE and SEND have any. -/
theorem transmitStreamOnlyGrows : Obligations.TransmitStreamOnlyGrows := by
  intro s t h
  obtain ⟨input, rest, hinputs, haccepted⟩ := accepted_of_step h
  obtain htx | ⟨r, i, rfl, hdecode, htx⟩ := tx_of_accepted haccepted
  · exact ⟨[], htx.trans (List.append_nil _).symm, nofun, fun hne => absurd rfl hne⟩
  · exact ⟨_, htx, fun ch => writesOf_nonempty,
      fun hne => ⟨r, rest, i, hinputs, hdecode, exists_encode_or_send_of_writesOf hne⟩⟩

end Sys2Proof.Machine
end

section
/-! Who writes the result registers, and what of them a command reads (10_state.md R23 to R29, R32). -/

namespace Sys2Proof.Machine

theorem sendEffect_keeps (useCrc : Bool) (payload : List Byte) (s : State) :
    (sendEffect useCrc payload s).rxState = s.rxState ∧ SameOutbuf s (sendEffect useCrc payload s) := by
  obtain ⟨crc, heffect⟩ | ⟨-, heffect⟩ := sendEffect_cases useCrc payload s <;> rw [heffect] <;>
    exact ⟨rfl, fun _ => rfl⟩

theorem receiveEffect_sameOutbuf (useCrc : Bool) (maxlen : Nat) (s : State) :
    SameOutbuf s (receiveEffect useCrc maxlen s) := by
  obtain ⟨-, heffect⟩ | ⟨code, rx, heffect, -⟩ := receiveEffect_cases useCrc maxlen s <;> rw [heffect] <;>
    exact fun _ => rfl

/-- Settles O52: each command's effect leaves the registers it is not named for as they were, by computation; OUTBUF is
filled by DECODE only, below its MAXLEN; the caller's reads add a reply. -/
theorem onlyNamedCommandsWrite : Obligations.OnlyNamedCommandsWrite := by
  refine ⟨fun i s t h => ?_, fun s t rest hread h => ?_⟩
  · obtain ⟨-, -, -, -, rfl⟩ := exec_next.mp h
    cases i using instr_cases with
    | crcReset =>
      exact ⟨fun _ => .inl rfl, fun h => absurd rfl h, fun h => absurd rfl h, fun h => absurd rfl h,
        fun _ h => absurd rfl h⟩
    | crcUpdate data =>
      exact ⟨fun _ => .inr (.inl ⟨data, rfl⟩), fun h => absurd rfl h, fun h => absurd rfl h, fun h => absurd rfl h,
        fun _ h => absurd rfl h⟩
    | crcRead =>
      exact ⟨fun h => absurd rfl h, fun h => absurd rfl h, fun h => absurd rfl h, fun h => absurd rfl h,
        fun _ h => absurd rfl h⟩
    | encode appendEnd raw =>
      rw [effectOf_encodeInstr]
      exact ⟨fun h => absurd rfl h, fun _ => .inl ⟨appendEnd, raw, rfl⟩, fun h => absurd rfl h, fun h => absurd rfl h,
        fun _ h => absurd rfl h⟩
    | decode maxlen wire =>
      obtain ⟨code, p, hfits, heffect⟩ := decodeEffect_eq s.cfg maxlen wire
      rw [effectOf_decode, heffect s rfl]
      refine ⟨fun h => absurd rfl h, fun _ => .inr (.inl ⟨maxlen, wire, rfl⟩), fun _ => .inl ⟨maxlen, wire, rfl⟩,
        fun h => absurd rfl h, fun a h => ⟨maxlen, wire, rfl, ?_⟩⟩
      by_contra hbelow
      exact h (State.outbufByte_fillOutbuf_above _ p maxlen a hfits (Nat.not_lt.mp hbelow))
    | send useCrc payload =>
      obtain ⟨hrx, hsame⟩ := sendEffect_keeps useCrc payload s
      rw [effectOf_sendInstr]
      exact ⟨fun _ => .inr (.inr (.inl ⟨useCrc, payload, rfl⟩)), fun _ => .inr (.inr (.inl ⟨useCrc, payload, rfl⟩)),
        fun _ => .inr (.inl ⟨useCrc, payload, rfl⟩), fun h => absurd hrx h, fun a h => absurd (hsame a) h⟩
    | receive useCrc maxlen =>
      rw [effectOf_receiveInstr]
      exact ⟨fun _ => .inr (.inr (.inr ⟨useCrc, maxlen, rfl⟩)), fun _ => .inr (.inr (.inr ⟨useCrc, maxlen, rfl⟩)),
        fun _ => .inr (.inr ⟨useCrc, maxlen, rfl⟩), fun _ => ⟨useCrc, maxlen, rfl⟩,
        fun a h => absurd (receiveEffect_sameOutbuf useCrc maxlen s a) h⟩
  · have hafter : AfterRead (s.withInputs rest) t := by
      obtain ⟨n, hinputs⟩ | ⟨n, hinputs⟩ := hread
      · exact afterRead_of_readRegister ((step_of_inputs hinputs).symm.trans h)
      · exact afterRead_of_readOutbuf ((step_of_inputs hinputs).symm.trans h)
    obtain ⟨value, draws, -, rfl⟩ := hafter
    exact ⟨rfl, rfl, rfl, rfl, rfl, fun _ => rfl⟩

end Sys2Proof.Machine
end

section
/-! Two runs that differ in the results of earlier commands only (10_state.md R32). -/

namespace Sys2Proof.Machine

/-- `s` with other results of earlier commands: all that `AgreeButResults` does not fix. -/
def State.withResults (s : State) (crc : Word16) (count : Nat) (err : ErrCode) (rx : RxState) (outbuf : Memory)
    (stamp : Nat) : State :=
  { s with crc := crc, count := count, err := err, rxState := rx, outbuf := outbuf, outbufStamp := stamp }

theorem agreeButResults_withResults (s : State) (crc : Word16) (count : Nat) (err : ErrCode) (rx : RxState)
    (outbuf : Memory) (stamp : Nat) : AgreeButResults s (s.withResults crc count err rx outbuf stamp) :=
  ⟨rfl, rfl, rfl, rfl, rfl, rfl, rfl, rfl, rfl, rfl, rfl⟩

theorem AgreeButResults.eq_withResults {s s' : State} (h : AgreeButResults s s') :
    s' = s.withResults s'.crc s'.count s'.err s'.rxState s'.outbuf s'.outbufStamp := by
  obtain ⟨hcfg, hbusy, hpending, hreads, habandoned, hinputs, hready, hwrote, hevents, hreplies, hdraws⟩ := h
  cases s'
  simp only at hcfg hbusy hpending hreads habandoned hinputs hready hwrote hevents hreplies hdraws
  subst hcfg hbusy hpending hreads habandoned hinputs hready hwrote hevents hreplies hdraws
  rfl

/-- After a command in each of two runs: they still agree, and each result was written the same or left alone. -/
def SameWork (s s' t t' : State) : Prop :=
  AgreeButResults t t' ∧
    SameOrKept s.crc s'.crc t.crc t'.crc ∧ SameOrKept s.count s'.count t.count t'.count ∧
    SameOrKept s.err s'.err t.err t'.err ∧ SameOrKept s.rxState s'.rxState t.rxState t'.rxState ∧
    ∀ a, SameOrKept (s.outbufByte a) (s'.outbufByte a) (t.outbufByte a) (t'.outbufByte a)

theorem SameOrKept.same {α : Type} {old old' new : α} : SameOrKept old old' new new := .inl rfl

theorem SameOrKept.kept {α : Type} {old old' : α} : SameOrKept old old' old old' := .inr ⟨rfl, rfl⟩

/-- `fillOutbuf` writes the same bytes in both runs, the free ones too, and leaves the others alone. -/
theorem sameOrKept_fillOutbuf {s s' : State} (h : s'.draws = s.draws) (p : List Byte) (maxlen a : Nat) :
    SameOrKept (s.outbufByte a) (s'.outbufByte a) ((s.fillOutbuf p maxlen).outbufByte a)
      ((s'.fillOutbuf p maxlen).outbufByte a) := by
  simp only [State.outbufByte, State.fillOutbuf_outbuf, State.fillOutbuf_outbufStamp, Memory.read_writeBytes, h]
  split
  · next hin =>
    left
    rw [List.getElem?_eq_getElem (by omega)]
    rfl
  · exact .kept

/-- The effects of a command in two runs that agree, of CRC too where it is read. -/
theorem sameWork_effectOf (i : Instr) (s : State) (crc : Word16) (count : Nat) (err : ErrCode) (rx : RxState)
    (outbuf : Memory) (stamp : Nat) (hcrc : (∃ d, i = .crcUpdate d) ∨ i = .crcRead → crc = s.crc) :
    let s' := s.withResults crc count err rx outbuf stamp
    SameWork s s' (effectOf i s) (effectOf i s') := by
  intro s'
  cases i using instr_cases with
  | crcReset => exact ⟨agreeButResults_withResults .., .same, .kept, .kept, .kept, fun _ => .kept⟩
  | crcUpdate data =>
    obtain rfl := hcrc (.inl ⟨data, rfl⟩)
    exact ⟨agreeButResults_withResults .., .same, .kept, .kept, .kept, fun _ => .kept⟩
  | crcRead =>
    obtain rfl := hcrc (.inr rfl)
    exact ⟨agreeButResults_withResults .., .kept, .kept, .kept, .kept, fun _ => .kept⟩
  | encode appendEnd raw =>
    rw [effectOf_encodeInstr]
    exact ⟨agreeButResults_withResults .., .kept, .same, .kept, .kept, fun _ => .kept⟩
  | decode maxlen wire =>
    obtain ⟨code, p, -, heffect⟩ := decodeEffect_eq s.cfg maxlen wire
    rw [effectOf_decode, heffect s rfl, heffect s' rfl]
    exact ⟨agreeButResults_withResults .., .kept, .same, .same, .kept,
      sameOrKept_fillOutbuf (s := s.setErr code) (s' := s'.setErr code) rfl p maxlen⟩
  | send useCrc payload =>
    rw [effectOf_sendInstr]
    cases hready : s.nextReady with
    | true =>
      rw [sendEffect_ready _ _ hready, sendEffect_ready (s := s') _ _ hready]
      exact ⟨agreeButResults_withResults .., .same, .same, .same, .kept, fun _ => .kept⟩
    | false =>
      rw [sendEffect_notReady _ _ hready, sendEffect_notReady (s := s') _ _ hready]
      exact ⟨agreeButResults_withResults .., .kept, .same, .same, .kept, fun _ => .kept⟩
  | receive useCrc maxlen =>
    rw [effectOf_receiveInstr]
    cases hready : s.nextReady with
    | true =>
      cases maxlen with
      | zero =>
        rw [receiveEffect_zero _ hready, receiveEffect_zero (s := s') _ hready]
        exact ⟨agreeButResults_withResults .., .kept, .same, .same, .same, fun _ => .kept⟩
      | succ m =>
        rw [receiveEffect_reads _ hready m.succ_ne_zero, receiveEffect_reads (s := s') _ hready m.succ_ne_zero]
        exact ⟨agreeButResults_withResults .., .same, .kept, .kept, .same, fun _ => .kept⟩
    | false =>
      rw [receiveEffect_notReady _ _ hready, receiveEffect_notReady (s := s') _ _ hready]
      exact ⟨agreeButResults_withResults .., .kept, .same, .same, .same, fun _ => .kept⟩

/-- The chunks of a command depend on no result of an earlier one. -/
theorem writesOf_withResults (i : Instr) (s : State) (crc : Word16) (count : Nat) (err : ErrCode) (rx : RxState)
    (outbuf : Memory) (stamp : Nat) : writesOf i (s.withResults crc count err rx outbuf stamp) = writesOf i s := by
  cases i <;> rfl

/-- Settles O55: the second state is the first with other results; the command is admitted in it for the same reasons, and
its effect does the same work. -/
theorem noStateLeaksBetweenMessages : Obligations.NoStateLeaksBetweenMessages := by
  intro i s s' t hagree hcrc h
  obtain ⟨hc, hb, hwf, hwrites, rfl⟩ := exec_next.mp h
  have hs' := hagree.eq_withResults
  have hwork := sameWork_effectOf i s s'.crc s'.count s'.err s'.rxState s'.outbuf s'.outbufStamp hcrc
  rw [← hs'] at hwork
  have hadmitted : acceptedWhole (writesOf i s') s'.wrote = true := by
    rw [hs', writesOf_withResults]
    exact hwrites
  obtain ⟨hcfg, hbusy, -⟩ := hagree
  exact ⟨_, exec_of_admitted (hcfg ▸ hc) (hbusy.trans hb) (hcfg ▸ hwf) hadmitted, hwork⟩

end Sys2Proof.Machine
end

section
/-! The invariant: one rule per operation on the state, then every command and every other input by these rules
(10_state.md R20 to R28, 20_memory.md R40, R42, 42_framer.md R141). -/

namespace Sys2Proof.Machine

/-! ## The idle core -/

theorem State.Inv.pending_of_idle {s : State} (h : s.Inv) (hb : s.busy = false) : s.pending = none := by
  by_contra hp
  have hbusy := h.busy_iff_pending.mpr hp
  rw [hb] at hbusy
  cases hbusy

/-- RXSTATE between two messages: neither ReadingUntilTerminator nor Decoding (10_state.md R27). -/
def Settled (rx : RxState) : Prop := rx ≠ .readingUntilTerminator ∧ rx ≠ .decoding

/-! ## One rule per operation -/

section Rules

variable {s : State}

theorem State.Inv.withInputs (h : s.Inv) (rest : List Input) : (s.withInputs rest).Inv := { h with }

theorem State.Inv.setErr (h : s.Inv) (e : ErrCode) : (s.setErr e).Inv := { h with }

theorem State.Inv.setCount (h : s.Inv) {n : Nat} (hn : n ≤ s.cfg.maxCount) : (s.setCount n).Inv :=
  { h with count_fits := hn }

theorem State.Inv.afterRead (h : s.Inv) {t : State} (ht : AfterRead s t) : t.Inv := by
  obtain ⟨value, draws, hdraws, rfl⟩ := ht
  exact { h with stamp_drawn := h.stamp_drawn.trans_le hdraws }

/-- CRC is written only while no read is outstanding. -/
theorem State.Inv.setCrc (h : s.Inv) (hp : s.pending = none) (c : Word16) : (s.setCrc c).Inv :=
  { h with pending_read := fun p hsome => by cases hp.symm.trans hsome }

theorem State.Inv.setRxState (h : s.Inv) (hb : s.busy = false) {rx : RxState} (hrx : Settled rx) :
    (s.setRxState rx).Inv :=
  { h with
    busy_iff_reading := ⟨fun hbusy => (nomatch hb.symm.trans hbusy), fun hreading => absurd hreading hrx.1⟩
    not_decoding := hrx.2 }

theorem State.Inv.askReady (h : s.Inv) : s.askReady.Inv :=
  { h with
    chunks_nonempty := by
      have htx : s.askReady.tx = s.tx := by simp [State.tx]
      rw [htx]
      exact h.chunks_nonempty
    stamp_drawn := by
      have hstamp := h.stamp_drawn
      rw [State.askReady_draws, State.askReady_outbufStamp]
      split <;> omega }

theorem State.Inv.writeChunks (h : s.Inv) {chunks : List (List Byte)} (hchunks : ∀ ch ∈ chunks, ch ≠ []) :
    (s.writeChunks chunks).Inv :=
  { h with
    chunks_nonempty := by
      have htx : (s.writeChunks chunks).tx = s.tx ++ chunks := by simp [State.tx]
      rw [htx]
      exact List.forall_mem_append.mpr ⟨h.chunks_nonempty, hchunks⟩ }

/-- Bytes that fit MAXLEN, and MAXLEN that fits OUTBUF, keep OUTBUF inside its addresses (20_memory.md R40). -/
theorem State.Inv.fillOutbuf (h : s.Inv) {p : List Byte} {maxlen : Nat} (hp : p.length ≤ maxlen)
    (hm : maxlen ≤ s.cfg.bufBytes) : (s.fillOutbuf p maxlen).Inv :=
  { h with
    outbuf_canonical := s.wf_fillOutbuf p maxlen h.outbuf_canonical
    outbuf_in_range := by
      intro cell hcell
      rcases Memory.mem_writeBytes _ _ _ _ hcell with ⟨-, hwritten⟩ | hkept
      · rw [State.fill_length] at hwritten
        rw [State.fillOutbuf_cfg]
        omega
      · exact h.outbuf_in_range cell hkept
    stamp_drawn := h.stamp_drawn.trans (Nat.lt_succ_self _) }

/-- The issue of a read: with CRC reset, from an idle state (42_framer.md R141). -/
theorem State.Inv.readUntilEnd (h : s.Inv) (hcrc : s.crc = 0x0000) {maxlen : Nat} (hroom : 1 ≤ maxlen)
    (hm : maxlen ≤ s.cfg.bufBytes) (useCrc : Bool) : (s.readUntilEnd maxlen useCrc).Inv :=
  { h with
    busy_iff_pending := ⟨fun _ => Option.some_ne_none _, fun _ => rfl⟩
    busy_iff_reading := ⟨fun _ => rfl, fun _ => rfl⟩
    not_decoding := nofun
    pending_read := by
      rintro p ⟨⟩
      refine ⟨hroom, hm, hcrc, Nat.lt_succ_self _, fun hin => ?_⟩
      obtain ⟨q, hq, hid⟩ := List.mem_map.mp hin
      exact Nat.ne_of_lt (h.abandoned_issued q hq) hid
    abandoned_issued := fun q hq => (h.abandoned_issued q hq).trans (Nat.lt_succ_self _)
    chunks_nonempty := by
      have htx : (s.readUntilEnd maxlen useCrc).tx = s.tx := by simp [State.tx]
      rw [htx]
      exact h.chunks_nonempty }

/-- The end of a read, together with the RXSTATE it ends in: BUSY and RXSTATE change in one step (10_state.md R27, R28). -/
theorem State.Inv.endRead (h : s.Inv) {rx : RxState} (hrx : Settled rx) : (s.endRead.setRxState rx).Inv :=
  { h with
    busy_iff_pending := ⟨nofun, fun hp => absurd rfl hp⟩
    busy_iff_reading := ⟨nofun, fun hreading => absurd hreading hrx.1⟩
    not_decoding := hrx.2
    pending_read := nofun }

theorem State.Inv.discardAnswer (h : s.Inv) (readId : Nat) : (s.discardAnswer readId).Inv :=
  { h with
    pending_read := by
      intro p hp
      obtain ⟨hroom, hm, hcrc, hid, hnew⟩ := h.pending_read p hp
      exact ⟨hroom, hm, hcrc, hid, fun hin => hnew ((List.filter_sublist.map _).subset hin)⟩
    abandoned_issued := fun q hq => h.abandoned_issued q (List.mem_filter.mp hq).1
    abandoned_once := h.abandoned_once.sublist (List.filter_sublist.map _) }

/-- Reset moves the outstanding read, which is new there, to the abandoned ones (70_reset_and_hazards.md R191). -/
theorem State.Inv.applyReset (h : s.Inv) : s.applyReset.Inv where
  config := h.config
  count_fits := Nat.zero_le _
  outbuf_canonical := List.Pairwise.nil
  outbuf_in_range := nofun
  busy_iff_pending := ⟨nofun, fun hp => absurd rfl hp⟩
  busy_iff_reading := ⟨nofun, nofun⟩
  not_decoding := nofun
  pending_read := nofun
  abandoned_issued := by
    intro q hq
    rcases List.mem_append.mp hq with hq | hq
    · exact h.abandoned_issued q hq
    · obtain ⟨-, -, -, hid, -⟩ := h.pending_read q (Option.mem_toList.mp hq)
      exact hid
  abandoned_once := by
    change ((s.abandoned ++ s.pending.toList).map PendingRead.id).Nodup
    cases hp : s.pending with
    | none => simpa using h.abandoned_once
    | some p =>
      obtain ⟨-, -, -, -, hnew⟩ := h.pending_read p hp
      rw [Option.toList_some, List.map_append, List.map_singleton, ← List.concat_eq_append]
      exact h.abandoned_once.concat hnew
  chunks_nonempty := h.chunks_nonempty
  stamp_drawn := Nat.lt_succ_self _

/-! ## Commands -/

/-- MAXLEN within OUTBUF is within COUNT's width too (00_scope.md R12). -/
theorem State.Inv.count_of_le_bufBytes (h : s.Inv) {n : Nat} (hn : n ≤ s.cfg.bufBytes) : n ≤ s.cfg.maxCount :=
  hn.trans h.config.2.2.2

theorem messageLength_le {c : Config} {useCrc : Bool} {payload : List Byte}
    (hwf : (sendInstr useCrc payload).wellFormed c = true) : messageLength useCrc payload ≤ c.maxCount := by
  cases useCrc with
  | false => exact (wellFormed_send c payload).mp hwf
  | true => exact (wellFormed_sendC c payload).mp hwf

theorem State.Inv.sendEffect (h : s.Inv) (hb : s.busy = false) {useCrc : Bool} {payload : List Byte}
    (hwf : (sendInstr useCrc payload).wellFormed s.cfg = true) : (sendEffect useCrc payload s).Inv := by
  have hidle := h.pending_of_idle hb
  obtain ⟨crc, heffect⟩ | ⟨-, heffect⟩ := sendEffect_cases useCrc payload s <;> rw [heffect]
  · have hchunks : ∀ ch ∈ sendWrites useCrc payload s, ch ≠ [] := by
      intro ch hch
      rw [← writesOf_sendInstr] at hch
      exact writesOf_nonempty hch
    exact (((h.askReady.setCrc hidle crc).writeChunks hchunks).setCount (messageLength_le hwf)).setErr _
  · exact (h.askReady.setCount (Nat.zero_le _)).setErr _

theorem State.Inv.receiveEffect (h : s.Inv) (hb : s.busy = false) {maxlen : Nat} (hm : maxlen ≤ s.cfg.bufBytes)
    (useCrc : Bool) : (receiveEffect useCrc maxlen s).Inv := by
  have hidle := h.pending_of_idle hb
  obtain ⟨hroom, heffect⟩ | ⟨code, rx, heffect, hrx⟩ := receiveEffect_cases useCrc maxlen s <;> rw [heffect]
  · exact (h.askReady.setCrc hidle 0x0000).readUntilEnd rfl hroom hm useCrc
  · have hsettled : Settled rx := by rcases hrx with rfl | rfl <;> exact ⟨nofun, nofun⟩
    exact ((h.askReady.setErr code).setCount (Nat.zero_le _)).setRxState hb hsettled

/-- Every command that goes on keeps the invariant. -/
theorem State.Inv.effectOf (h : s.Inv) (hb : s.busy = false) {i : Instr} (hwf : i.wellFormed s.cfg = true) :
    (effectOf i s).Inv := by
  have hidle := h.pending_of_idle hb
  cases i using instr_cases with
  | crcReset => exact h.setCrc hidle _
  | crcUpdate data => exact (h.setCrc hidle _).afterRead (afterRead_reply _ _)
  | crcRead => exact h.afterRead (afterRead_reply s _)
  | encode appendEnd raw =>
    have hfit : raw.length ≤ s.cfg.maxCount := by cases appendEnd <;> simpa [encodeInstr] using hwf
    rw [effectOf_encodeInstr]
    exact (h.writeChunks fun ch => encodeWrites_nonempty).setCount hfit
  | decode maxlen wire =>
    obtain ⟨hm, -⟩ := (wellFormed_decode _ _ _).mp hwf
    obtain ⟨code, p, hp, heffect⟩ := decodeEffect_eq s.cfg maxlen wire
    rw [effectOf_decode, heffect s rfl]
    exact ((h.setErr code).fillOutbuf hp hm).setCount (h.count_of_le_bufBytes (hp.trans hm))
  | send useCrc payload =>
    rw [effectOf_sendInstr]
    exact h.sendEffect hb hwf
  | receive useCrc maxlen =>
    have hm : maxlen ≤ s.cfg.bufBytes := by cases useCrc <;> simpa [receiveInstr] using hwf
    rw [effectOf_receiveInstr]
    exact h.receiveEffect hb hm useCrc

/-! ## Answers, and every step -/

theorem State.Inv.finishErr (h : s.Inv) {maxlen : Nat} (hm : maxlen ≤ s.cfg.bufBytes) (crc : Word16) (code : ErrCode)
    {rx : RxState} (hrx : Settled rx) : ((s.endRead.setCrc crc).finishErr code rx maxlen).Inv :=
  (((h.endRead hrx).setCrc rfl crc).fillOutbuf (Nat.zero_le _) hm).setErr code |>.setCount (Nat.zero_le _)

theorem State.Inv.finishDelivered (h : s.Inv) {m : List Byte} {maxlen : Nat} (hp : m.length ≤ maxlen)
    (hm : maxlen ≤ s.cfg.bufBytes) (crc : Word16) : ((s.endRead.setCrc crc).finishDelivered m maxlen).Inv :=
  ((((h.endRead (rx := .delivered) ⟨nofun, nofun⟩).setCrc rfl crc).fillOutbuf hp hm).setCount
    (h.count_of_le_bufBytes (hp.trans hm))).setErr _

/-- An admitted answer to the awaited read keeps the invariant, however it ends the read. -/
theorem State.Inv.completeRead (h : s.Inv) {p : PendingRead} (hp : s.pending = some p) {a : ReadAnswer}
    (ha : answerAllowed s.cfg.pEnd (p.maxlen - 1) a = true) : (completeRead p a s).Inv := by
  obtain ⟨hroom, hm, -, -, -⟩ := h.pending_read p hp
  obtain ⟨crc, code, rx, hend, hcode⟩ | ⟨crc, bs, m, rfl, hend, hlen⟩ := completeRead_cases p a s <;> rw [hend]
  · have hsettled : Settled rx := by
      rcases hcode with ⟨-, rfl⟩ | ⟨-, rfl⟩ | ⟨-, rfl⟩ | ⟨-, rfl⟩ <;> exact ⟨nofun, nofun⟩
    exact h.finishErr hm crc code hsettled
  · have hallowed : AllowedBytes s p bs := answerAllowed_found.mp ha
    exact h.finishDelivered (hlen.trans (hallowed.unescape_length_lt hroom).le) hm crc

theorem State.Inv.accepted (h : s.Inv) {input : Input} {t : State} (ht : Accepted s input t) : t.Inv := by
  cases ht with
  | command _ hexec =>
    obtain ⟨-, hb, hwf, -, -⟩ := exec_next.mp hexec
    exact h.effectOf hb hwf
  | answer hp ha => exact h.completeRead hp ha
  | discard readId _ => exact h.discardAnswer readId
  | reset => exact h.applyReset
  | readRegister hread | readOutbuf hread => exact h.afterRead hread

end Rules

/-- Settles O56: the step takes an input, and what it does with it keeps the invariant. -/
theorem stepKeepsInv : Obligations.StepKeepsInv := by
  intro s t h hstep
  obtain ⟨input, rest, -, haccepted⟩ := accepted_of_step hstep
  exact (h.withInputs rest).accepted haccepted

theorem powerOn_inv {c : Config} (hc : c.WellFormed) : (State.powerOn c).Inv where
  config := hc
  count_fits := Nat.zero_le _
  outbuf_canonical := List.Pairwise.nil
  outbuf_in_range := nofun
  busy_iff_pending := ⟨nofun, fun hp => absurd rfl hp⟩
  busy_iff_reading := ⟨nofun, nofun⟩
  not_decoding := nofun
  pending_read := nofun
  abandoned_issued := nofun
  abandoned_once := List.nodup_nil
  chunks_nonempty := nofun
  stamp_drawn := Nat.zero_lt_one

/-- Settles O57: `State.reset` is power-on in the reference configuration, which is admitted. -/
theorem resetMeetsInv : Obligations.ResetMeetsInv := ⟨fun _ => powerOn_inv, powerOn_inv (by decide)⟩

end Sys2Proof.Machine
end
